-- ==== Sys2Proof/Word.lean ====
section
/-! DEFINITION. The word types of the block: a byte, the 64-bit register word, byte strings (R9 to R11). -/

namespace Sys2Proof

/-- A byte; byte 0 of a string is at the lowest address (R11). -/
abbrev Byte := BitVec 8

/-- A 64-bit register of the window (R60). -/
abbrev Word := BitVec 64

/-- A 32-bit counter or register half. -/
abbrev Half := BitVec 32

/-- A string of bytes, byte 0 first. -/
abbrev Bytes := List Byte

end Sys2Proof
end

