-- ==== Sys2Proof/Syntax.lean ====
section
/-! DEFINITION. The commands of the block: one constructor of `Instr` per row of spec/opcode_table.json.
The table gives no operands; those here are what the rows' rules need (DESIGN CHOICE, log entry 2). -/

namespace Sys2Proof

/-- Which half of a 64-bit register the byte strobes of an access mark (R60): all of it, bits 31:0, bits 63:32, or any other bytes. -/
inductive Width where
  | full | low | high | other
  deriving DecidableEq, Repr

/-- Sidebands of one target-port access (R61): TGT_INST, TGT_MGR and the bytes accessed. -/
structure Tgt where
  inst  : Fin 128
  mgr   : Bool
  width : Width
  deriving DecidableEq, Repr

/-- Who makes a dictionary request (R343): the manager mailbox, instance mailbox n, or EOA session k of 0 to 7. -/
inductive Who where
  | mgr
  | inst (n : Fin 128)
  | session (k : Fin 8)
  deriving DecidableEq, Repr

/-- A fabric response code (R59). -/
inductive Resp where
  | ok | poison | decode | targetErr
  deriving DecidableEq, Repr

/-- One read data beat with its response code (R493). -/
structure Beat where
  code : Resp
  data : Bytes
  deriving DecidableEq, Repr

/-- Unit kinds of R17 and R255: cipher, digest, lattice-and-field engines and edge lanes. -/
inductive EngineKind where
  | ce | de | lf | el
  deriving DecidableEq, Repr

/-- How a direct-feed computation ends (R298). -/
inductive DfEnd where
  | formed | mismatch | threeDisagreed | poisoned
  deriving DecidableEq, Repr

/-- How the comparison of a chunk, quantum or job ends (R242, R254, R278), or which memory held poison (R446): staging, at an
operand code and offset of R219; a hold page or scratch; the engine's context; the key's slot. -/
inductive Compare where
  | agree | differ
  | staging (code off : Nat)
  | hold | context | key
  deriving DecidableEq, Repr

/-- What fails in the random generator (R325): a noise source, or the comparison of its two datapaths. -/
inductive GenFail where
  | source (k : Fin 2)
  | datapaths
  deriving DecidableEq, Repr

/-- How a lane ends a frame: its datapaths agree or differ (R277), or the entry of the edge key table held poison (R446). -/
inductive LaneEnd where
  | agree | differ | entry
  deriving DecidableEq, Repr

/-- How the slot 0 device answers where it is woken or initialised (R397, R398, R400). -/
structure S0In where
  awake    : Bool    -- the awake path is answered in time
  ocrs     : Nat     -- CMD1 commands sent
  ocr      : Bool    -- the last one reports ready with sector mode, within 1 s
  rev      : Nat     -- EXT_CSD_REV
  types    : BitVec 8 -- DEVICE_TYPE
  cache    : Bool    -- the device has a cache
  cid      : Bytes
  capacity : Nat     -- bytes of the user area
  tunes    : Nat     -- CMD21 commands sent
  tuned    : Bool    -- tuning succeeds
  deriving DecidableEq, Repr

/-- What a card time-out meets (R408): a write past its limit ended in the second that followed, and how slot 0 answers R398 in stage 2
of R407. -/
structure LateIn where
  ended : Bool
  s0    : S0In
  deriving DecidableEq, Repr

/-- What start-up meets outside the state: the strap, the outcomes of the start-up tests and of slot 0 (R435). -/
structure BootIn where
  strap      : Bool   -- PEL_LEAD_STRAP (R71)
  tandemA    : Bool   -- comparator injection test of tandem A passes (R450)
  tandemB    : Bool
  source0    : Bool   -- noise source 0 passes its start-up tests (R324)
  source1    : Bool
  s0         : S0In
  groupKept  : Bool   -- a group in flight at the power loss is found durable (R429)
  dropped    : Nat    -- records of one that is not, in pages that were written whole (R428)
  copyCut    : Bool   -- power is lost while a staged image is copied (R438)
  deriving DecidableEq, Repr

/-- A fleet card as initialisation and the insertion check find it (R405, R413). -/
structure CardIn where
  echo    : Bool            -- CMD8 echo
  polls   : Nat             -- ACMD41 commands sent
  ready   : Bool            -- ACMD41 within 1 s
  ccs     : Bool
  s18a    : Bool
  switch1 : Bool            -- DAT released on the first CMD11
  switch2 : Bool            -- DAT released on the second
  later   : Bool            -- steps 5 to 7 succeed
  rca     : Nat             -- the address that the card publishes
  cid     : Bytes
  modes   : BitVec 8        -- modes the card supports
  places  : List (Nat × Bytes) -- record place number 0 to 31, and its bytes
  deriving DecidableEq, Repr

/-- How an EOA PDU reached the block (R359 to R361): over Ethernet, from a source address with the bytes of its VLAN tag, or over a
CAN FD binding. -/
inductive Via where
  | eth (src tag : Bytes)
  | can (binding : Fin 4)
  deriving DecidableEq, Repr

/-- One frame of channel 96: its descriptor beat and the frame (R359). -/
structure EoaIn where
  raw : Bytes
  deriving DecidableEq, Repr

/-- A frame of the offload port: channel, descriptor beat and payload (R269). -/
structure OflFrame where
  chan    : Fin 128
  desc    : Bytes
  payload : Bytes
  deriving DecidableEq, Repr

/-- A cascade frame as it arrives by a port: its header's fields, the bytes after the header and the CRC-32 of the hop (R482, R483). The
commands that carry one have the plaintext of its body beside it. (DESIGN CHOICE, log entry 52.) -/
structure CasHead where
  east : Bool   -- the port it comes by
  type : Byte
  src  : Fin 4
  dst  : Fin 4
  ctr  : Nat
  wire : Bytes  -- enrolment message, or ciphertext and tag
  crc  : Nat
  deriving DecidableEq, Repr

/-- One key slot as a slot move carries it (R155). -/
structure MovedSlot where
  slot    : Nat
  gen     : Nat
  usage   : Nat
  ktype   : Nat
  csrc    : Nat
  cnum    : Nat
  fixed   : Bytes
  shareA  : Bytes
  shareB  : Bytes
  run     : Nat
  depth   : Nat
  limit   : Nat
  used    : Nat
  next    : Nat
  stop    : Nat
  first   : Option Nat
  last    : Option Nat
  root    : Option Nat
  test    : Bool
  sealedOnly : Bool
  tlsSpent : Bool
  ownerLabel : Bytes
  deriving DecidableEq, Repr

/-- A forwarded job as FWD_JOB carries it (R320, R321): public operands only. -/
structure FwdWork where
  opcode : Nat
  alg    : Nat
  opspec : Nat
  a : Bytes
  b : Bytes
  c : Bytes
  d : Bytes
  deriving DecidableEq, Repr

/-- Completion statuses (R218). -/
inductive Status where
  | ok | authFail | authFailReleased | aborted | chainAbandoned | malformedEntry | badOpcode | lengthMismatch
  | lengthLimit | alignment | keyStale | keyPolicy | nonceExhausted | usageLimit | keyNotReady | regionViolation
  | poisonedData | fetchError | engineFault | pkInvalidInput | pkIterationLimit | entropyFail
  deriving DecidableEq, Repr

/-- The code of a completion status (R218). -/
def Status.code : Status → Nat
  | .ok => 0x0000
  | .authFail => 0x0101
  | .authFailReleased => 0x0102
  | .aborted => 0x0201
  | .chainAbandoned => 0x0202
  | .malformedEntry => 0x0301
  | .badOpcode => 0x0302
  | .lengthMismatch => 0x0303
  | .lengthLimit => 0x0304
  | .alignment => 0x0305
  | .keyStale => 0x0401
  | .keyPolicy => 0x0402
  | .nonceExhausted => 0x0403
  | .usageLimit => 0x0404
  | .keyNotReady => 0x0405
  | .regionViolation => 0x0501
  | .poisonedData => 0x0502
  | .fetchError => 0x0503
  | .engineFault => 0x0601
  | .pkInvalidInput => 0x0602
  | .pkIterationLimit => 0x0603
  | .entropyFail => 0x0701

/-- A result of public-key work: completion status, RESULT word, output bytes. -/
structure PkOut where
  status : Status
  result : Nat
  out    : Bytes
  deriving DecidableEq, Repr

/-- What the checks of an ENROL message find that turn on Kwaxiva's certificates, whose form the spec does not state (R484). (DESIGN
CHOICE, log entry 52.) -/
structure EnrolIn where
  certOk : Bool   -- they chain to Kwaxiva's root
  sigsOk : Bool   -- both attestation signatures verify under the keys they certify
  deriving DecidableEq, Repr

/-- The commands, in the table's order. (DESIGN CHOICE, log entry 2.) -/
inductive Instr where
  | dieRstNAssert
  | dieRstNRelease (b : BootIn)
  | firmwareResident (sectionsOk : Bool)
  | aonPorNRelease
  | clockSclkAbsent
  | powerLoss
  | vddAonLost
  | vbatLoss
  | scanModeRise
  | pmDownReq
  | pmDownReqFall (reached : Fin 7) (s0 : S0In) -- steps of R469 that have run (R82), and how slot 0 wakes
  | freewheelAfter
  | freewheelJobLimit
  | freewheelEntry
  | coastEntry
  | coastExit
  | tbCycle
  | timeLost (valid : Bool) (tbTime : Nat)
  | windowPoll (w : Fin 64)
  | tamper (i : Fin 8) (stays : Bool)
  | alarmInput (i : Fin 8) (stays : Bool)
  | sensor (k : Fin 4) (stays : Bool)
  | shuffle (flips : List (Nat × BitVec 32)) (cells : List (Nat × Byte)) -- bits of check words, by item, and cells outside the map, that have been upset
  | tmpClear (w : Who) (mask : BitVec 8)
  | faultClear (a : Tgt) (v : Word)
  | sensClr (a : Tgt) (v : Word)
  | wakeFrame (bytes : Bytes) (last held : Bool) -- WK_LAST with the last of them, and whether WK_REQ still stands high for it (R72)
  | wakeBackoff
  | backoffEnd
  | instErrClr (a : Tgt) (n : Fin 128)
  | drain (a : Tgt) (n : Fin 128)
  | switch (a : Tgt) (n : Fin 128)
  | drainComplete (n : Fin 128)
  | ringInvalHold (a : Tgt) (n : Fin 128) (sq : Fin 16) (first : Half)
  | ringInvalRelease (a : Tgt) (n : Fin 128) (sq : Fin 16)
  | ringInvalDone (n : Fin 128)
  | headWrite (a : Tgt) (n : Fin 128) (cq : Fin 8) (v : Word) (bad : Bool) -- the overflow area held poison (R446)
  | arm (a : Tgt) (n : Fin 128) (cq : Fin 8)
  | dfStart (a : Tgt) (n : Fin 128) (v : Word)
  | dfAbort (a : Tgt) (n : Fin 128)
  | dfData (a : Tgt) (n : Fin 128) (v : Word)
  | dfLast (a : Tgt) (n : Fin 128) (v : Word)
  | dfExpect (a : Tgt) (n : Fin 128) (w : Fin 8) (v : Word)
  | dfCtxWrite (a : Tgt) (n : Fin 128) (v : Word)
  | dfDone (n : Fin 128) (e : DfEnd)
  | rtAddrWrite (a : Tgt) (e : Fin 1024) (v : Word)
  | rtAttrWrite (a : Tgt) (e : Fin 1024) (v : Word)
  | tableFence (a : Tgt)
  | tableFenceComplete
  | snapshotRequest (a : Tgt)
  | snapshotPeriod
  | snapshotDone (bad : List (Nat × Nat)) -- counters whose words in the bank held poison (R446)
  | registerWrite (a : Tgt) (addr : Nat) (v : Word) (wr : Bool) -- TGT_WR: a write, or a read (R60)
  | read (w : Who) (index sub : Nat)
  | write (w : Who) (index sub : Nat) (data : Bytes)
  | segWrite (w : Who) (index sub : Nat) (first last : Bool) (arg : Nat) (data : Bytes)
  | segRead (w : Who) (index sub : Nat) (first : Bool) (arg : Nat)
  | segAbort (w : Who)
  | transferIdle (w : Who)
  | lcRequest (w : Who) (data : Bytes)
  | debugEnable (w : Who) (data : Bytes)
  | hostMeasure (w : Who) (data : Bytes)
  | recoveryAttest (w : Who) (data : Bytes)
  | rootDelivery (w : Who) (data : Bytes)
  | anchorRestore (w : Who) (data : Bytes)
  | anchorPkg (w : Who) (data : Bytes)
  | create (w : Who) (n : Fin 128)
  | activate (w : Who) (n : Fin 128)
  | quiesce (w : Who) (n : Fin 128)
  | quiesceComplete (n : Fin 128)
  | reset (w : Who) (n : Fin 128)
  | selfReset (w : Who) (n : Fin 128)
  | engineStopTimeout (n : Fin 128)
  | resetComplete (n : Fin 128)
  | destroy (w : Who) (n : Fin 128)
  | reshare (w : Who) (n : Fin 128)
  | pelMove (w : Who) (n : Fin 128) (data : Bytes)
  | sqEnable (w : Who) (g : Fin 512)
  | sqDisable (w : Who) (g : Fin 512)
  | shutdownAbandon (g : Fin 512)
  | shutdownComplete (g : Fin 512)
  | cqEnable (w : Who) (q : Fin 256)
  | cqDisable (w : Who) (q : Fin 256)
  | edgeLoad (w : Who) (data : Bytes)
  | edgeFree (w : Who) (data : Bytes)
  | jnlCompact (w : Who) (data : Bytes)
  | updBegin (w : Who) (data : Bytes)
  | updSegment (w : Who) (first last : Bool) (arg : Nat) (data : Bytes)
  | updAbandon (w : Who) (data : Bytes)
  | wakeKey (w : Who) (k : Fin 4) (data : Bytes)
  | faultInject (w : Who) (data : Bytes)
  | sessionClose (w : Who) (data : Bytes)
  | rtLoad (w : Who) (data : Bytes)
  | recAppend (w : Who) (data : Bytes)
  | s1Enable (w : Who) (data : Bytes)
  | sqPoll (g : Fin 512)
  | pollInterval
  | ringReadReturn (g : Fin 512) (beats : List Beat) (cache : Option Half) -- counter of a unit the slice held poisoned (R446)
  | dispatch (tc : Option (Fin 128))
  | chainMemberStart (j : Nat)
  | pad (g : Fin 512)
  | nop (j : Nat)
  | aeadEnc (j : Nat)
  | aeadDec (j : Nat)
  | cipherEnc (j : Nat)
  | cipherDec (j : Nat)
  | macGen (j : Nat)
  | macVerify (j : Nat)
  | hash (j : Nat)
  | hmacGen (j : Nat)
  | hashCompare (j : Nat)
  | hmacVerify (j : Nat)
  | keyDerive (j : Nat)
  | keyUnwrap (j : Nat)
  | keyWrap (j : Nat)
  | keyEvict (j : Nat)
  | keyEvictComplete (slot : Nat)
  | keyDeliverSealed (j : Nat)
  | kbAck
  | kbNack
  | kbAnswerTimeout
  | kbZeroiseWaitTimeout (j : Nat)
  | keyAgree (j : Nat)
  | pkSign (j : Nat)
  | pkVerify (j : Nat)
  | pkKeygen (j : Nat)
  | kemEncaps (j : Nat)
  | kemDecaps (j : Nat)
  | modexp (j : Nat)
  | ecPoint (j : Nat)
  | random (j : Nat)
  | tls13Open (j : Nat)
  | tls13Seal (j : Nat)
  | espIn (j : Nat)
  | espOut (j : Nat)
  | keyResolve (j : Nat) (bad : Bool) -- the slot it looked up held poison (R446)
  | chunkComplete (j : Nat) (c : Compare)
  | quantumBoundary (k : EngineKind) (e : Fin 16) (c : Compare)
  | pkJobEnd (j : Nat) (c : Compare)
  | completionInterrupt (q : Fin 256)
  | irqDelay (q : Fin 256)
  | irqAccept
  | fabricReadResponse (id : Nat) (beats : List Beat)
  | fabricWriteResponse (id : Nat) (r : Resp)
  | engineQuarantined (k : EngineKind) (e : Fin 16)
  | clusterFenced (c : Fin 4) (cause : Fin 3)
  | tcRebuild
  | mismatchAlarm
  | reseed
  | entropySource (e : GenFail)
  | edgeVerify (f : OflFrame)
  | edgeGenerate (f : OflFrame)
  | edgeLaneDone (l : Fin 8) (e : LaneEnd)
  | hello (f : EoaIn)
  | finish (f : EoaIn)
  | request (f : EoaIn)
  | close (f : EoaIn)
  | sessionDropLimit (k : Fin 8)
  | openingIdle (k : Fin 8)
  | idleLimit (k : Fin 8)
  | nCrTimeout (b : Fin 4) (sending : Bool) -- N_Bs of a response, or N_Cr of a reception (R361)
  | tandemCheckpoint (t : Fin 2)
  | tandemRestart (t : Fin 2)
  | tandemRetired (t : Fin 2)
  | journalCommit (durable : Bool)
  | journalSnapshot
  | budgetWindowEnd
  | removal
  | powerOffHold (cardLow : Bool)
  | insertion
  | debounceEnd (c : CardIn)
  | cardOperationDone (slot : Fin 2) (readBack : Bytes) (s0 : S0In) -- how slot 0 answers R398, where poisoned data leads to it
  | cardTransferFailure (slot : Fin 2) (counterAdvanced : Bool) (s0 : S0In) -- how slot 0 answers R398 in stage 2 of R407
  | cardTimeout (slot : Fin 2) (ended : LateIn)
  | appendGrace
  | linkTrained (east : Bool)
  | cascadeRetransmit (east : Bool)
  | linkError (east : Bool)
  | enrolmentStart (m : Fin 4)
  | enrol1 (h : CasHead)
  | enrol2 (h : CasHead) (e : EnrolIn)
  | enrol3 (h : CasHead) (e : EnrolIn)
  | pairKeys (h : CasHead) (members : List (Fin 4)) (keys : List (Fin 4 × Bytes))
  | heartbeatPeriod
  | heartbeat (h : CasHead)
  | heartbeatAck (h : CasHead)
  | pelLeadLost
  | ackLoss (m : Fin 4)
  | capacityAdvert
  | capacity (h : CasHead) (n : Nat)
  | fwdJob (h : CasHead) (job : Nat) (w : FwdWork)
  | fwdResult (h : CasHead) (job : Nat) (r : PkOut)
  | fwdCancel (h : CasHead) (job : Nat)
  | fwdTimeout (j : Nat)
  | slotInstall (h : CasHead) (srcInst dstInst : Fin 128) (base quota : Nat) (counters : List (Nat × Nat)) (slots : List MovedSlot)
  | slotCommit (h : CasHead) (dstInst : Fin 128)
  | slotConfirm (h : CasHead) (srcInst : Fin 128)
  | slotRefuse (h : CasHead) (srcInst : Fin 128)
  | slotMoveTimeout (n : Fin 128)
  | confirmTimeout (n : Fin 128)
  | sclkInEdges
  | kbZeroiseFall
  | reservedChannelFrame (f : OflFrame)
  | oflTxReady
  | digestJobEnd (j : Nat) (c : Compare)
  | firstFrame (f : EoaIn)
  | consecutiveFrame (f : EoaIn)
  | flowControl (f : EoaIn)
  | hopAcknowledgement (east : Bool)
  deriving DecidableEq, Repr

end Sys2Proof
end

