-- ==== Sys2Proof/Decode.lean ====
section
/-! DEFINITION. The table's rows carry no bits, so no word spells a command. -/

namespace Sys2Proof

/-- The command that a word spells by the table's bits: no row gives any. (DESIGN CHOICE, log entry 1.) -/
def decodeTableWord (_nbits _w : Nat) : Option Instr := none

end Sys2Proof
end

