-- ==== Sys2Proof/Machine/Bits.lean ====
section
/-! DEFINITION. Byte strings and fields: little-endian fields (R9), big-endian numbers of cryptographic strings (R10),
slices, exclusive-or, and bit fields of numbers (R11). -/

namespace Sys2Proof.Machine

/-- Byte i of a string, 0 beyond its end. -/
def byteAt (b : Bytes) (i : Nat) : Nat := (b.getD i 0#8).toNat

/-- n bytes from offset off. -/
def slice (b : Bytes) (off n : Nat) : Bytes := (b.drop off).take n

/-- The number whose bytes, least significant first, are b (R9). -/
def ofLe (b : Bytes) : Nat := b.foldr (fun x acc => x.toNat + 256 * acc) 0

/-- The number whose bytes, most significant first, are b. -/
def ofBe (b : Bytes) : Nat := b.foldl (fun acc x => 256 * acc + x.toNat) 0

/-- n bytes of v, least significant first. -/
def toLe : Nat → Nat → Bytes
  | 0, _ => []
  | n + 1, v => BitVec.ofNat 8 v :: toLe n (v / 256)

/-- n bytes of v, most significant first. -/
def toBe (n v : Nat) : Bytes := (toLe n v).reverse

/-- The little-endian field of n bytes at offset off. -/
def le (b : Bytes) (off n : Nat) : Nat := ofLe (slice b off n)

/-- n zero bytes. -/
def zeros (n : Nat) : Bytes := List.replicate n 0#8

/-- Exclusive-or of two strings, as long as the shorter. -/
def xorB (a b : Bytes) : Bytes := List.zipWith (· ^^^ ·) a b

/-- b with zeros after it up to n bytes, cut to n. -/
def padTo (n : Nat) (b : Bytes) : Bytes := b.take n ++ zeros (n - b.length)

/-- All bytes zero. -/
def allZero (b : Bytes) : Bool := b.all (· == 0#8)

/-- Bits hi to lo of a number. -/
def bits (v hi lo : Nat) : Nat := v / 2 ^ lo % 2 ^ (hi + 1 - lo)

/-- Bit i of a number. -/
def bit (v i : Nat) : Bool := v / 2 ^ i % 2 == 1

/-- 1 for true. -/
def flag (b : Bool) : Nat := if b then 1 else 0

/-- b cut into blocks of n bytes, the last possibly shorter (n ≥ 1). The first argument bounds the recursion. -/
def blocksAux (n : Nat) : Nat → Bytes → List Bytes
  | 0, _ => []
  | _, [] => []
  | k + 1, b => b.take n :: blocksAux n k (b.drop n)

def blocks (n : Nat) (b : Bytes) : List Bytes := blocksAux n b.length b

/-- An ASCII string. -/
def ascii (s : String) : Bytes := s.toList.map fun c => BitVec.ofNat 8 c.toNat

/-- Ceiling of a / b. -/
def ceilDiv (a b : Nat) : Nat := (a + b - 1) / b

/-- A 32-bit difference a − b as a signed number (R175). -/
def sdiff (a b : Half) : Int := (a - b).toInt

end Sys2Proof.Machine
end

