-- ==== Sys2Proof/Machine/Aes.lean ====
section
/-! DEFINITION. AES (FIPS 197) and the modes of R245: CTR, CBC, XTS, CMAC, GCM, CCM, and the KWP of R118. The standards
are named by the spec; their text is taken from outside it (PRESUMED, log entry 10). -/

namespace Sys2Proof.Machine

/-! ## The block cipher -/

/-- Multiplication by x in GF(2^8). -/
def xtime (a : Byte) : Byte := (a <<< 1) ^^^ (if a.getLsbD 7 then 0x1B#8 else 0#8)

/-- Product in GF(2^8) of a and the low bits of b, as many as the count says. -/
def gmulAux (a b : Byte) : Nat → Byte
  | 0 => 0#8
  | k + 1 => xtime (gmulAux a (b >>> 1) k) ^^^ (if b.getLsbD 0 then a else 0#8)

/-- The S-box (FIPS 197, table 4): entry i is byte i, from the least significant one. -/
def sboxBits : Nat :=
  0x16bb54b00f2d99416842e6bf0d89a18cdf2855cee9871e9b948ed9691198f8e19e1dc186b95735610ef6034866b53e708a8bbd4b1f74dde8c6b4a61c2e2578ba * 2 ^ 1536 +
  0x08ae7a65eaf4566ca94ed58d6d37c8e779e4959162acd3c25c2406490a3a32e0db0b5ede14b8ee4688902a22dc4f816073195d643d7ea7c41744975fec130ccd * 2 ^ 1024 +
  0xd2f3ff1021dab6bcf5389d928f40a351a89f3c507f02f94585334d43fbaaefd0cf584c4a39becb6a5bb1fc20ed00d153842fe329b3d63b52a05a6e1b1a2c8309 * 2 ^ 512 +
  0x75b227ebe28012079a059618c323c7041531d871f1e5a534ccf73f362693fdb7c072a49cafa2d4adf04759fa7dc982ca76abd7fe2b670130c56f6bf27b777c63
/-- Its inverse (FIPS 197, table 6). -/
def invBits : Nat :=
  0x7d0c2155631469e126d677ba7e042b17619953833cbbebc8b0f52aae4d3be0a0ef9cc9939f7ae52d0d4ab519a97f51605fec8027591012b131c7078833a8dd1f * 2 ^ 1536 +
  0xf45acd78fec0db9a2079d2c64b3e56fc1bbe18aa0e62b76f89c5291d711af1476edf751ce837f9e28535ade72274ac9673e6b4f0cecff297eadc674f4111913a * 2 ^ 1024 +
  0x6b8a130103bdafc1020f3fca8f1e2cd00645b3b80558e4f70ad3bc8c00abd890849d8da75746155edab9edfd5048706c92b6655dcc5ca4d41698688664f6f872 * 2 ^ 512 +
  0x25d18b6d49a25b76b224d92866a12e084ec3fa420b954cee3d23c2a632947b54cbe9dec444438e3487ff2f9b8239e37cfbd7f3819ea340bf38a53630d56a0952

def subByte (a : Byte) : Byte := BitVec.ofNat 8 (sboxBits / 2 ^ (8 * a.toNat))
def invByte (a : Byte) : Byte := BitVec.ofNat 8 (invBits / 2 ^ (8 * a.toNat))

/-- Word n of the key schedule from its predecessors, newest first. -/
def nextWord (nk n : Nat) (rcon : Byte) (ws : List Bytes) : Bytes :=
  let prev := ws.headD []
  let back := ws.getD (nk - 1) []
  let t :=
    if n % nk = 0 then xorB ((prev.drop 1 ++ prev.take 1).map subByte) [rcon, 0#8, 0#8, 0#8]
    else if 6 < nk ∧ n % nk = 4 then prev.map subByte else prev
  xorB back t

/-- The schedule's words from word n on, newest first. -/
def expandAux (nk : Nat) : Nat → Nat → Byte → List Bytes → List Bytes
  | 0, _, _, ws => ws
  | k + 1, n, rcon, ws =>
    expandAux nk k (n + 1) (if n % nk = 0 then xtime rcon else rcon) (nextWord nk n rcon ws :: ws)

/-- Round keys, 16 bytes each. -/
def roundKeys (key : Bytes) : List Bytes :=
  let nk := key.length / 4
  let ws := (blocks 4 key).reverse
  let all := (expandAux nk (4 * (nk + 7) - nk) nk 1#8 ws).reverse
  blocks 16 all.flatten

def subBytes (s : Bytes) : Bytes := s.map subByte
def invSubBytes (s : Bytes) : Bytes := s.map invByte
def shiftRows (s : Bytes) : Bytes := (List.range 16).map fun i => s.getD ((i + 4 * (i % 4)) % 16) 0#8
def invShiftRows (s : Bytes) : Bytes := (List.range 16).map fun i => s.getD ((i + 12 * (i % 4)) % 16) 0#8

/-- One column times the circulant matrix of the coefficients, of n bits each. -/
def mixColumn (n : Nat) (m c : Bytes) : Bytes :=
  (List.range 4).map fun r =>
    (List.range 4).foldl (fun acc k => acc ^^^ gmulAux (c.getD k 0#8) (m.getD ((k + 4 - r) % 4) 0#8) n) 0#8
def mixColumns (s : Bytes) : Bytes := ((blocks 4 s).map (mixColumn 2 [2#8, 3#8, 1#8, 1#8])).flatten
def invMixColumns (s : Bytes) : Bytes := ((blocks 4 s).map (mixColumn 4 [14#8, 11#8, 13#8, 9#8])).flatten

/-- Encrypt one block under round keys. (PRESUMED, log entry 10.) -/
def encBlock (rks : List Bytes) (b : Bytes) : Bytes :=
  let mid := ((rks.drop 1).dropLast).foldl (fun st k => xorB (mixColumns (shiftRows (subBytes st))) k) (xorB b (rks.headD []))
  xorB (shiftRows (subBytes mid)) (rks.getLastD [])

/-- Decrypt one block under round keys. -/
def decBlock (rks : List Bytes) (b : Bytes) : Bytes :=
  let mid := ((rks.drop 1).dropLast).reverse.foldl
    (fun st k => invMixColumns (xorB (invSubBytes (invShiftRows st)) k)) (xorB b (rks.getLastD []))
  xorB (invSubBytes (invShiftRows mid)) (rks.headD [])

def aesEnc (key b : Bytes) : Bytes := encBlock (roundKeys key) b
def aesDec (key b : Bytes) : Bytes := decBlock (roundKeys key) b

/-! ## CTR and CBC -/

/-- Keystream of n blocks; counter block i is `ctr i`. -/
def keystream (rks : List Bytes) (ctr : Nat → Bytes) (n : Nat) : Bytes :=
  ((List.range n).map fun i => encBlock rks (ctr i)).flatten

/-- R245: the whole counter block counts modulo 2^128. (PRESUMED, log entry 10.) -/
def aesCtr (key iv data : Bytes) : Bytes :=
  xorB data (keystream (roundKeys key) (fun i => toBe 16 (ofBe iv + i)) (ceilDiv data.length 16))

def cbcEnc (key iv data : Bytes) : Bytes :=
  let rks := roundKeys key
  ((blocks 16 data).foldl (fun (p : Bytes × List Bytes) b =>
    let c := encBlock rks (xorB b p.1)
    (c, c :: p.2)) (iv, [])).2.reverse.flatten

def cbcDec (key iv data : Bytes) : Bytes :=
  let rks := roundKeys key
  (List.zipWith (fun c p => xorB (decBlock rks c) p) (blocks 16 data) (iv :: blocks 16 data)).flatten

/-! ## XTS -/

/-- Next tweak: multiplication by x in the field of XTS, bytes little-endian. -/
def xtsNext (t : Bytes) : Bytes :=
  let v := ofLe t * 2
  toLe 16 (if v < 2 ^ 128 then v else (v - 2 ^ 128) ^^^ 0x87)

/-- n tweaks from t on. -/
def xtsTweaks : Nat → Bytes → List Bytes
  | 0, _ => []
  | n + 1, t => t :: xtsTweaks n (xtsNext t)

def xtsBlock (f : Bytes → Bytes) (t b : Bytes) : Bytes := xorB (f (xorB b t)) t

/-- XTS over one data unit with ciphertext stealing; the key is a pair of halves. -/
def xts (enc : Bool) (key iv data : Bytes) : Bytes :=
  let h := key.length / 2
  let r1 := roundKeys (key.take h)
  let f := fun b => if enc then encBlock r1 b else decBlock r1 b
  let m := data.length / 16
  let tail := data.length % 16
  let ts := xtsTweaks (m + 1) (aesEnc (key.drop h) iv)
  if tail = 0 then (List.zipWith (xtsBlock f) ts (blocks 16 data)).flatten
  else
    let head := (List.zipWith (xtsBlock f) ts (blocks 16 (data.take (16 * (m - 1))))).flatten
    let tA := if enc then ts.getD (m - 1) [] else ts.getD m []
    let tB := if enc then ts.getD m [] else ts.getD (m - 1) []
    let cc := xtsBlock f tA (slice data (16 * (m - 1)) 16)
    let part := data.drop (16 * m)
    head ++ xtsBlock f tB (part ++ cc.drop tail) ++ cc.take tail

/-! ## CMAC -/

/-- Doubling in the field of CMAC, big-endian. -/
def cmacDbl (b : Bytes) : Bytes :=
  let v := ofBe b * 2
  toBe 16 (if v < 2 ^ 128 then v else (v - 2 ^ 128) ^^^ 0x87)

/-- AES-CMAC of SP 800-38B, 16 bytes. (PRESUMED, log entry 10.) -/
def cmac (key msg : Bytes) : Bytes :=
  let rks := roundKeys key
  let k1 := cmacDbl (encBlock rks (zeros 16))
  let n := max 1 (ceilDiv msg.length 16)
  let last := msg.drop (16 * (n - 1))
  let lastX := if last.length = 16 then xorB last k1 else xorB (padTo 16 (last ++ [0x80#8])) (cmacDbl k1)
  let st := (blocks 16 (msg.take (16 * (n - 1)))).foldl (fun st b => encBlock rks (xorB st b)) (zeros 16)
  encBlock rks (xorB st lastX)

/-! ## GCM and GMAC -/

/-- Product in GF(2^128) of GCM: bit 127 is the coefficient of x^0. -/
def ghashMulAux (y : Nat) : Nat → Nat → Nat → Nat
  | 0, _, z => z
  | k + 1, v, z =>
    ghashMulAux y k (if v % 2 = 1 then v / 2 ^^^ (0xE1 * 2 ^ 120) else v / 2) (if bit y k then z ^^^ v else z)
def ghashMul (x y : Nat) : Nat := ghashMulAux y 128 x 0

/-- GHASH of data padded to blocks, from accumulator acc. -/
def ghash (h acc : Nat) (data : Bytes) : Nat :=
  (blocks 16 data).foldl (fun a b => ghashMul h (a ^^^ ofBe (padTo 16 b))) acc

/-- Counter block i after J0 for a 12-byte IV. -/
def gcmCtr (iv : Bytes) (i : Nat) : Bytes := iv ++ toBe 4 (2 + i)

/-- Encrypt or decrypt the payload of GCM. -/
def gcmCrypt (key iv data : Bytes) : Bytes :=
  xorB data (keystream (roundKeys key) (gcmCtr iv) (ceilDiv data.length 16))

/-- The 16-byte GCM tag over AAD and ciphertext. (PRESUMED, log entry 10.) -/
def gcmTag (key iv aad ct : Bytes) : Bytes :=
  let rks := roundKeys key
  let h := ofBe (encBlock rks (zeros 16))
  let s := ghash h (ghash h 0 aad) ct
  let s := ghashMul h (s ^^^ (aad.length * 8 * 2 ^ 64 + ct.length * 8))
  xorB (encBlock rks (iv ++ toBe 4 1)) (toBe 16 s)

/-! ## CCM -/

/-- The blocks CCM authenticates: B0, the AAD with its length, the payload, each padded (SP 800-38C). -/
def ccmBlocks (nonce aad pt : Bytes) (tagLen : Nat) : Bytes :=
  let l := 15 - nonce.length
  let b0 := BitVec.ofNat 8 ((if aad.isEmpty then 0 else 64) + (tagLen - 2) / 2 * 8 + (l - 1)) :: nonce ++ toBe l pt.length
  let head := if aad.isEmpty then [] else if aad.length < 0xFF00 then toBe 2 aad.length else [0xFF#8, 0xFE#8] ++ toBe 4 aad.length
  let a := head ++ aad
  b0 ++ padTo (ceilDiv a.length 16 * 16) a ++ padTo (ceilDiv pt.length 16 * 16) pt

def ccmCtr (nonce : Bytes) (i : Nat) : Bytes :=
  let l := 15 - nonce.length
  BitVec.ofNat 8 (l - 1) :: nonce ++ toBe l i

def ccmCrypt (key nonce data : Bytes) : Bytes :=
  xorB data (keystream (roundKeys key) (fun i => ccmCtr nonce (i + 1)) (ceilDiv data.length 16))

def ccmTag (key nonce aad pt : Bytes) (tagLen : Nat) : Bytes :=
  let rks := roundKeys key
  let t := (blocks 16 (ccmBlocks nonce aad pt tagLen)).foldl (fun st b => encBlock rks (xorB st b)) (zeros 16)
  (xorB t (encBlock rks (ccmCtr nonce 0))).take tagLen

/-! ## Key wrap with padding (KWP, SP 800-38F) -/

/-- The wrapping rounds of step t, over A and the semiblocks. -/
def kwRound (rks : List Bytes) (n : Nat) (p : Bytes × List Bytes) (t : Nat) : Bytes × List Bytes :=
  let i := (t - 1) % n
  let b := encBlock rks (p.1 ++ p.2.getD i [])
  (xorB (b.take 8) (toBe 8 t), p.2.set i (b.drop 8))

def kwRoundInv (rks : List Bytes) (n : Nat) (p : Bytes × List Bytes) (t : Nat) : Bytes × List Bytes :=
  let i := (t - 1) % n
  let b := decBlock rks (xorB p.1 (toBe 8 t) ++ p.2.getD i [])
  (b.take 8, p.2.set i (b.drop 8))

def kwpWrap (key data : Bytes) : Bytes :=
  let rks := roundKeys key
  let a := [0xA6#8, 0x59#8, 0x59#8, 0xA6#8] ++ toBe 4 data.length
  let p := padTo (ceilDiv data.length 8 * 8) data
  let n := p.length / 8
  if n = 1 then encBlock rks (a ++ p)
  else
    let r := ((List.range (6 * n)).map (· + 1)).foldl (kwRound rks n) (a, blocks 8 p)
    r.1 ++ r.2.flatten

/-- Unwrap; none where the integrity check fails. -/
def kwpUnwrap (key c : Bytes) : Option Bytes :=
  let rks := roundKeys key
  let n := c.length / 8 - 1
  let r :=
    if n = 1 then
      let b := decBlock rks c
      (b.take 8, [b.drop 8])
    else ((List.range (6 * n)).reverse.map (· + 1)).foldl (kwRoundInv rks n) (c.take 8, blocks 8 (c.drop 8))
  let len := ofBe (r.1.drop 4)
  let p := r.2.flatten
  if r.1.take 4 = [0xA6#8, 0x59#8, 0x59#8, 0xA6#8] ∧ 8 * (n - 1) < len ∧ len ≤ 8 * n ∧ allZero (p.drop len) then
    some (p.take len)
  else none

end Sys2Proof.Machine
end

