-- ==== Sys2Proof/Machine/ChaCha.lean ====
section
/-! DEFINITION. ChaCha20-Poly1305 (RFC 8439, named by R243; PRESUMED, log entry 10). -/

namespace Sys2Proof.Machine

def chaAt (s : Array Half) (i : Nat) : Half := s[i]!

/-- One quarter round on words a, b, c, d. -/
def quarter (s : Array Half) (a b c d : Nat) : Array Half :=
  let s := s.set! a (chaAt s a + chaAt s b)
  let s := s.set! d ((chaAt s d ^^^ chaAt s a).rotateLeft 16)
  let s := s.set! c (chaAt s c + chaAt s d)
  let s := s.set! b ((chaAt s b ^^^ chaAt s c).rotateLeft 12)
  let s := s.set! a (chaAt s a + chaAt s b)
  let s := s.set! d ((chaAt s d ^^^ chaAt s a).rotateLeft 8)
  let s := s.set! c (chaAt s c + chaAt s d)
  s.set! b ((chaAt s b ^^^ chaAt s c).rotateLeft 7)

def doubleRound (s : Array Half) : Array Half :=
  let s := quarter (quarter (quarter (quarter s 0 4 8 12) 1 5 9 13) 2 6 10 14) 3 7 11 15
  quarter (quarter (quarter (quarter s 0 5 10 15) 1 6 11 12) 2 7 8 13) 3 4 9 14

/-- One 64-byte block of key stream. -/
def chaBlock (key nonce : Bytes) (ctr : Nat) : Bytes :=
  let w := (blocks 4 (ascii "expand 32-byte k" ++ key ++ toLe 4 ctr ++ nonce)).map fun b => BitVec.ofNat 32 (ofLe b)
  let s := (List.range 10).foldl (fun s _ => doubleRound s) w.toArray
  (List.zipWith (fun x y => toLe 4 (x + y : Half).toNat) s.toList w).flatten

/-- Encrypt or decrypt; the block counter starts at 1 (R245). (PRESUMED, log entry 10.) -/
def chaCrypt (key nonce data : Bytes) : Bytes :=
  xorB data (((List.range (ceilDiv data.length 64)).map fun i => chaBlock key nonce (1 + i)).flatten)

def poly1305 (key msg : Bytes) : Bytes :=
  let p := 2 ^ 130 - 5
  let r := ofLe (key.take 16) &&& 0x0FFFFFFC0FFFFFFC0FFFFFFC0FFFFFFF
  let acc := (blocks 16 msg).foldl (fun a b => (a + ofLe b + 2 ^ (8 * b.length)) * r % p) 0
  toLe 16 (acc + ofLe (key.drop 16))

def chaTag (key nonce aad ct : Bytes) : Bytes :=
  let pad := fun b : Bytes => padTo (ceilDiv b.length 16 * 16) b
  poly1305 ((chaBlock key nonce 0).take 32) (pad aad ++ pad ct ++ toLe 8 aad.length ++ toLe 8 ct.length)

end Sys2Proof.Machine
end

