-- ==== Sys2Proof/Machine/Hash.lean ====
section
/-! DEFINITION. SHA-2 (FIPS 180-4), SHA-3 and SHAKE (FIPS 202) and HMAC (FIPS 198-1), as R279 names them (PRESUMED, log entry 10).
The constants are computed from their definitions: fractional parts of roots of primes. -/

namespace Sys2Proof.Machine

/-! ## SHA-2 -/

/-- The first n primes by trial division, from m up; the first argument bounds the recursion. -/
def primesAux : Nat → Nat → Nat → List Nat
  | 0, _, _ => []
  | _, 0, _ => []
  | f + 1, n + 1, m =>
    if (List.range m).all fun d => d < 2 || m % d != 0 then m :: primesAux f n (m + 1) else primesAux f (n + 1) (m + 1)
def primes80 : List Nat := primesAux 420 80 2

/-- The largest x below 2^k with x^e ≤ n, bit by bit. -/
def rootAux (e n : Nat) : Nat → Nat → Nat
  | 0, x => x
  | k + 1, x => rootAux e n k (if (x + 2 ^ k) ^ e ≤ n then x + 2 ^ k else x)

/-- First 64 fractional bits of the e-th root of p. -/
def fracRoot (e p : Nat) : BitVec 64 := BitVec.ofNat 64 (rootAux e (p * 2 ^ (64 * e)) 70 0)

def k512 : Array (BitVec 64) := (primes80.map (fracRoot 3)).toArray
def h512 : List (BitVec 64) := (primes80.take 8).map (fracRoot 2)
def h384 : List (BitVec 64) := ((primes80.drop 8).take 8).map (fracRoot 2)
def hi32 (x : BitVec 64) : Half := (x >>> 32).setWidth 32
def k256 : Array Half := (k512.toList.take 64 |>.map hi32).toArray
def h256 : List Half := h512.map hi32
def h224 : List Half := h384.map (·.setWidth 32)

/-- Rotation and shift amounts of one SHA-2 word size. -/
structure ShaRot where
  s0 : Nat × Nat × Nat
  s1 : Nat × Nat × Nat
  b0 : Nat × Nat × Nat
  b1 : Nat × Nat × Nat

def rot256 : ShaRot := ⟨(7, 18, 3), (17, 19, 10), (2, 13, 22), (6, 11, 25)⟩
def rot512 : ShaRot := ⟨(1, 8, 7), (19, 61, 6), (28, 34, 39), (14, 18, 41)⟩

def small {w : Nat} (r : Nat × Nat × Nat) (x : BitVec w) : BitVec w :=
  x.rotateRight r.1 ^^^ x.rotateRight r.2.1 ^^^ (x >>> r.2.2)
def big {w : Nat} (r : Nat × Nat × Nat) (x : BitVec w) : BitVec w :=
  x.rotateRight r.1 ^^^ x.rotateRight r.2.1 ^^^ x.rotateRight r.2.2

/-- The message schedule, newest word first. -/
def schedule {w : Nat} (r : ShaRot) : Nat → List (BitVec w) → List (BitVec w)
  | 0, l => l
  | n + 1, l =>
    let at_ := fun i => l.getD i 0#w
    schedule r n ((small r.s1 (at_ 1) + at_ 6 + small r.s0 (at_ 14) + at_ 15) :: l)

/-- One round on the working variables a to h. -/
def shaRound {w : Nat} (r : ShaRot) (v : List (BitVec w)) (kw : BitVec w) : List (BitVec w) :=
  match v with
  | [a, b, c, d, e, f, g, h] =>
    let t1 := h + big r.b1 e + ((e &&& f) ^^^ (~~~e &&& g)) + kw
    let t2 := big r.b0 a + ((a &&& b) ^^^ (a &&& c) ^^^ (b &&& c))
    [t1 + t2, a, b, c, d + t1, e, f, g]
  | _ => v

def compress {w : Nat} (r : ShaRot) (ks : Array (BitVec w)) (h : List (BitVec w)) (blk : Bytes) : List (BitVec w) :=
  let m := (blocks (w / 8) blk).map fun b => BitVec.ofNat w (ofBe b)
  let ws := (schedule r (ks.size - 16) m.reverse).reverse
  let v := (List.zipWith (· + ·) ks.toList ws).foldl (shaRound r) h
  List.zipWith (· + ·) h v

/-- SHA-2 of a whole message: padding, compression, and the leading out bytes. -/
def sha2 {w : Nat} (r : ShaRot) (ks : Array (BitVec w)) (h0 : List (BitVec w)) (out : Nat) (msg : Bytes) : Bytes :=
  let blk := w * 2
  let lenB := w / 4
  let z := (2 * blk - (msg.length + 1 + lenB) % blk) % blk
  let p := msg ++ 0x80#8 :: zeros z ++ toBe lenB (msg.length * 8)
  ((((blocks blk p).foldl (compress r ks) h0).map fun x => toBe (w / 8) x.toNat).flatten).take out

/-- PRESUMED, log entry 10. -/
def sha256 (m : Bytes) : Bytes := sha2 rot256 k256 h256 32 m
def sha224 (m : Bytes) : Bytes := sha2 rot256 k256 h224 28 m
def sha512 (m : Bytes) : Bytes := sha2 rot512 k512 h512 64 m
def sha384 (m : Bytes) : Bytes := sha2 rot512 k512 h384 48 m

/-- Initial value of SHA-512/256: SHA-512 with every word changed, over the function's name. -/
def h512t : List (BitVec 64) :=
  (blocks 8 (sha2 rot512 k512 (h512.map (· ^^^ 0xA5A5A5A5A5A5A5A5#64)) 64 (ascii "SHA-512/256"))).map
    fun b => BitVec.ofNat 64 (ofBe b)
def sha512t256 (m : Bytes) : Bytes := sha2 rot512 k512 h512t 32 m

/-! ## Keccak -/

/-- Round constants by the LFSR of FIPS 202: state and bits collected. -/
def lfsrNext (r : Nat) : Nat := let v := r * 2; if v < 256 then v else (v - 256) ^^^ 0x71
def lfsrs : Nat → Nat → List Nat
  | 0, _ => []
  | n + 1, r => r :: lfsrs n (lfsrNext r)
def keccakRc : List (BitVec 64) :=
  (blocks7 (lfsrs 168 1)).map fun l =>
    BitVec.ofNat 64 ((List.zipWith (fun j r => if r % 2 = 1 then 2 ^ (2 ^ j - 1) else 0) (List.range 7) l).sum)
where
  /-- Cut into sevens. -/
  blocks7 (l : List Nat) : List (List Nat) := (List.range 24).map fun i => (l.drop (7 * i)).take 7

/-- Lane (x, y) is at x + 5y. The walk of rho and pi: position and rotation at each of 24 steps. -/
def rhoPi : List (Nat × Nat) :=
  ((List.range 24).foldl (fun (p : (Nat × Nat) × List (Nat × Nat)) t =>
    ((p.1.2, (2 * p.1.1 + 3 * p.1.2) % 5), (p.1.1 + 5 * p.1.2, (t + 1) * (t + 2) / 2 % 64) :: p.2)) ((1, 0), [])).2.reverse

def lane (s : Array (BitVec 64)) (i : Nat) : BitVec 64 := s[i]!

def keccakRound (s : Array (BitVec 64)) (rc : BitVec 64) : Array (BitVec 64) :=
  let c := fun x => lane s (x % 5) ^^^ lane s (x % 5 + 5) ^^^ lane s (x % 5 + 10) ^^^ lane s (x % 5 + 15) ^^^ lane s (x % 5 + 20)
  let d := ((List.range 5).map fun x => c (x + 4) ^^^ (c (x + 1)).rotateLeft 1).toArray
  let s := ((List.range 25).map fun i => lane s i ^^^ d[i % 5]!).toArray
  let b := rhoPi.foldl (fun (t : Array (BitVec 64)) p =>
    let x := p.1 % 5
    let y := p.1 / 5
    t.set! (y + 5 * ((2 * x + 3 * y) % 5)) ((lane s p.1).rotateLeft p.2)) (Array.replicate 25 (lane s 0))
  let e := ((List.range 25).map fun i =>
    let y := i / 5 * 5
    lane b i ^^^ (~~~(lane b (y + (i + 1) % 5)) &&& lane b (y + (i + 2) % 5))).toArray
  e.set! 0 (lane e 0 ^^^ rc)

/-- PRESUMED, log entry 10. -/
def keccakF (s : Array (BitVec 64)) : Array (BitVec 64) := keccakRc.foldl keccakRound s

/-- Exclusive-or a block into the state. -/
def absorb (s : Array (BitVec 64)) (b : Bytes) : Array (BitVec 64) :=
  let ws := blocks 8 b
  ((List.range 25).map fun i => lane s i ^^^ BitVec.ofNat 64 (ofLe (ws.getD i []))).toArray

def squeeze (rate : Nat) : Nat → Array (BitVec 64) → Bytes
  | 0, _ => []
  | n + 1, s => ((s.toList.map fun x => toLe 8 x.toNat).flatten).take rate ++ squeeze rate n (keccakF s)

/-- A sponge with the given rate, domain byte and output length. -/
def sponge (rate : Nat) (dom : Byte) (out : Nat) (msg : Bytes) : Bytes :=
  let z := rate - 1 - msg.length % rate
  let p := if z = 0 then msg ++ [dom ||| 0x80#8] else msg ++ dom :: zeros (z - 1) ++ [0x80#8]
  let s := (blocks rate p).foldl (fun s b => keccakF (absorb s b)) (Array.replicate 25 0#64)
  (squeeze rate (ceilDiv out rate) s).take out

def sha3 (out : Nat) (m : Bytes) : Bytes := sponge (200 - 2 * out) 0x06#8 out m
def shake128 (out : Nat) (m : Bytes) : Bytes := sponge 168 0x1F#8 out m
def shake256 (out : Nat) (m : Bytes) : Bytes := sponge 136 0x1F#8 out m

/-! ## By algorithm code (R279) -/

/-- Digest bytes of an algorithm; 0 for SHAKE and unknown codes. -/
def digestLen (alg : Nat) : Nat :=
  match alg with
  | 0x30 => 28
  | 0x31 => 32
  | 0x32 => 48
  | 0x33 => 64
  | 0x34 => 32
  | 0x38 => 32
  | 0x39 => 48
  | 0x3A => 64
  | _ => 0

/-- Block or rate bytes (R279). -/
def blockLen (alg : Nat) : Nat :=
  match alg with
  | 0x30 | 0x31 => 64
  | 0x32 | 0x33 | 0x34 => 128
  | 0x38 | 0x3D => 136
  | 0x39 => 104
  | 0x3A => 72
  | 0x3C => 168
  | _ => 64

/-- The digest of a message, n bytes for SHAKE (R279). -/
def digest (alg n : Nat) (m : Bytes) : Bytes :=
  match alg with
  | 0x30 => sha224 m
  | 0x31 => sha256 m
  | 0x32 => sha384 m
  | 0x33 => sha512 m
  | 0x34 => sha512t256 m
  | 0x38 => sha3 32 m
  | 0x39 => sha3 48 m
  | 0x3A => sha3 64 m
  | 0x3C => shake128 n m
  | 0x3D => shake256 n m
  | _ => []

/-- HMAC (FIPS 198-1, R281). -/
def hmac (alg : Nat) (key msg : Bytes) : Bytes :=
  let k := padTo (blockLen alg) (if blockLen alg < key.length then digest alg 0 key else key)
  digest alg 0 (k.map (· ^^^ 0x5C#8) ++ digest alg 0 (k.map (· ^^^ 0x36#8) ++ msg))

end Sys2Proof.Machine
end

