-- ==== Sys2Proof/Config.lean ====
section
/-! DEFINITION. What the spec leaves open, as constants without a body: free values (DESIGN CHOICE, log entry 4), and the values
fixed in ROM and fuses (DESIGN CHOICE, log entry 7). -/

namespace Sys2Proof.Config

/-- Free byte number i: a random draw, or a value the spec does not state (DESIGN CHOICE, log entry 4). -/
opaque freeByte : Nat → Byte

/-- Byte i of mask number n taken from the mask reserve: the spec does not say how masks are formed from the reserve (R326;
DESIGN CHOICE, log entry 43). -/
opaque maskByte : (reserve : Bytes) → (n i : Nat) → Byte

/-- Drawn bytes that the recovery identity's ECDSA P-384 key comes from: a function of the factory seed (R88). -/
opaque recoveryEc : Bytes
/-- Seed of the recovery identity's ML-DSA-65 key (R88). -/
opaque recoveryPq : Bytes
/-- Kwaxiva's certificates of the recovery identity (R116). -/
opaque recoveryCert : Bytes
/-- Die serial number, from fuses (R373). -/
opaque dieSerial : Bytes
/-- Kwaxiva's ECDSA P-384 and ML-DSA-87 token keys, public halves, in the boot ROM (R92, R125). -/
opaque tokenEc : Bytes
opaque tokenPq : Bytes
/-- Kwaxiva's ECDSA P-384 and ML-DSA-87 image keys, public halves, in the boot ROM (R430). -/
opaque imageEc : Bytes
opaque imagePq : Bytes
/-- The image distribution key, in the boot ROM (R430). -/
opaque imageKey : Bytes
/-- The bytes that a token or an owner authorisation signs: what it names, fingerprint, target code and challenge, and debug enablement or
not (R92 states no layout). -/
opaque tokenMessage : (fingerprint : Bytes) → (target : Nat) → (challenge : Bytes) → (debug : Bool) → Bytes
/-- The ECDSA P-384 and ML-DSA-87 signatures of the Kwaxiva token that LC_AUTH holds (R92 states no layout). -/
opaque tokenSigEc : Bytes → Bytes
opaque tokenSigPq : Bytes → Bytes
/-- The ECDSA P-384 and ML-DSA-65 signatures of the owner authorisation that LC_AUTH holds. -/
opaque ownerSigEc : Bytes → Bytes
opaque ownerSigPq : Bytes → Bytes
/-- The check word of a vault item (R456 states no more than its 32 bits). -/
opaque checkWord : (item : Nat) → Bytes → BitVec 32
/-- How two key pairs descend from a root with an internal usage code (R122, R362 state no more): 32 and 64 bytes for
the enrolment key, 48 and 32 for the EOA identity. -/
opaque enrolKeys : Bytes → Bytes
opaque eoaKeys : Bytes → Bytes
/-- Plaintext of a protected cascade frame's body, from its TYPE and what it says (R483 states no layout of it; DESIGN CHOICE, log entry 52). -/
opaque casBody : (type : Nat) → (numbers : List Nat) → (strings : List Bytes) → Bytes
/-- The lead claim that ends ENROL_1 (R484 states no form of it; DESIGN CHOICE, log entry 52). -/
opaque leadClaim : Bytes
end Sys2Proof.Config
end

