-- ==== Sys2Proof/Machine/Catalogue.lean ====
section
/-! DEFINITION. The object dictionary's names (R341, R369, R370): every object of the catalogue as one constructor,
the type, access, rights and persistence of each (R342 to R344), and the index and subindex that name it. -/

namespace Sys2Proof.Machine

/-- EOA status codes (R346). -/
inductive EStatus where
  | ok | noObject | noSubindex | accessDenied | readOnly | typeLength | range
  | stateConflict | busyDeferred | segSequence | authFail | persistFail
  deriving DecidableEq, Repr

/-- The code of a status (R346). -/
def EStatus.code : EStatus → Nat
  | .ok => 0x0000
  | .noObject => 0x0101
  | .noSubindex => 0x0102
  | .accessDenied => 0x0201
  | .readOnly => 0x0202
  | .typeLength => 0x0301
  | .range => 0x0302
  | .stateConflict => 0x0401
  | .busyDeferred => 0x0402
  | .segSequence => 0x0501
  | .authFail => 0x0601
  | .persistFail => 0x0701

/-- Staged and stored instance descriptor values, subindices 0x03 to 0x0D of R129. -/
inductive DescField where
  | credits | weight | sqCount | cqCount | slotBase | slotQuota | edgeQuota | colours | tclass
  | tcReserve | consumers
  deriving DecidableEq, Repr

/-- Every object of the dictionary. A constructor's argument is the family variable of its index or subindex. -/
inductive Obj where
  | highest (index top : Nat)                                            -- subindex 0 of every index (R341)
  | ident | fingerprint | vendor | product | dieSerial                  -- 0x1000 (R373)
  | lcState | lcRequest | lcAuth | debugEnable | lcChallenge             -- 0x1010 (R116)
  | tmpCfg (i : Fin 8) | tmpLatched | tmpLevel | tmpClear                -- 0x1020 (R374)
  | vcounter (k : Fin 64) | bootEpoch | journalAnchor | cardCounter (k : Fin 16) -- 0x1100
  | rootClear (k : Fin 9) | rootKcv | ownerAnchor | rootDelivery | enrolPub | recoveryCert
  | recoveryAttest | rootStatus | anchorRestore                          -- 0x1110
  | fwMeasure | fwSvn | hostMeasure                                      -- 0x1120
  | instState (n : Fin 128) | instCommand (n : Fin 128) | instDesc (n : Fin 128) (f : DescField)
  | instSqBase (n : Fin 128) | instCqBase (n : Fin 128)
  | logBase (n : Fin 128) | logLow (n : Fin 128) | logPages (n : Fin 128) | logEnable (n : Fin 128)
  | instHand (n : Fin 128) | instOutstanding (n : Fin 128) | instNotice (n : Fin 128)
  | selfReset (n : Fin 128) | pelAccept (n : Fin 128) | pelMove (n : Fin 128) | pelResult (n : Fin 128) -- 0x1200+n
  | sqState (g : Fin 512) | sqEnable (g : Fin 512) | sqBaseAddr (g : Fin 512) | sqSize (g : Fin 512)
  | sqWbAddr (g : Fin 512) | sqCq (g : Fin 512) | sqCadence (g : Fin 512) | sqConsumed (g : Fin 512)
  | sqOwner (g : Fin 512) | sqStopCause (g : Fin 512)                    -- 0x1300+s (R159)
  | cqState (q : Fin 256) | cqEnable (q : Fin 256) | cqBaseAddr (q : Fin 256) | cqSize (q : Fin 256)
  | cqTail (q : Fin 256) | cqVector (q : Fin 256) | cqIrqMode (q : Fin 256) | cqIrqCount (q : Fin 256)
  | cqIrqDelay (q : Fin 256) | cqOverflow (q : Fin 256) | cqStalled (q : Fin 256) | cqOwner (q : Fin 256) -- 0x1500+q
  | tcCycleMin | tcCycleSeen | tcAligned | tcPollLoad | tcUnits          -- 0x1600 (R229)
  | winSq (w : Fin 64) | winOffset (w : Fin 64) | winEnable (w : Fin 64) -- 0x1601+w
  | rtLoad                                                               -- 0x1700 (R336)
  | edgeEnable | chanOwner | laneQuar | edgeLoad | edgeFree | edgeEntry (k : Fin 512) -- 0x1800, 0x1801, 0x1810+k
  | s0State | s0Cid | s0Capacity | s1Enable | s1Modes | s1State | s1Mode | s1Cid | crcRetries -- 0x1900 (R377)
  | recCounter | recAppend | recLast | recStatus                         -- 0x1920
  | jnlState | jnlFill | jnlCapacity | jnlDayBytes | jnlDayLimit | jnlCompact | jnlTime -- 0x1A00 (R379)
  | updState | runImage | svnFloor | bootResult | updAtWake              -- 0x1B00 (R380)
  | updBegin | updSegment | updBitmap | updReceived | updAbandon
  | pwrState | coastAfter | freewheelAfter | wakeEnable | wakeCounter | backoffTime | wakeStatus -- 0x1C00
  | wakeKey (k : Fin 4)                                                  -- 0x1C01
  | pelConfig | pelMember | pelRole | pelStatus | pelPeer (m : Fin 4)    -- 0x1D00, 0x1D01 (R384)
  | fwdEnable | fwdAccept | fwdEngines                                   -- 0x1D10 (R319)
  | tandemRestarts | restartWindow | mgrIrqMask | faultInject            -- 0x1E00 (R386)
  | eoaEnable | eoaEtherType | eoaMac | sessionsMax | idleLimit | blockCert | eoaIdPub
  | anchorClear | anchorPkg | anchorStatus | sessionClose | helloDrops   -- 0x1F00 (R362)
  | canBind (b : Fin 4) | sessionInfo (k : Fin 8)                        -- 0x1F01, 0x1F02
  | snapSeq | snapTime | snapBank                                        -- 0x2000 (R389)
  | counter (index sub : Nat)                                            -- 0x2010 on (R390, R391)
  | evtLog | evtSeq                                                      -- 0x3000 (R392)
  | fwVersion | imageA | imageB | romVersion | sentryVersion | microcodeVersion -- 0x5000 (R395)
  deriving DecidableEq, Repr

/-- Types of R342; a RECORD and an OCTETS carry their length, a DOMAIN its longest value. -/
inductive OType where
  | bool | uint (bytes : Nat) | octets (n : Nat) | string | record (n : Nat) | domain (limit : Nat) (fixed : Bool)
  deriving DecidableEq, Repr

/-- Access of R341. -/
inductive Access where
  | ro | rw | wo
  deriving DecidableEq, Repr

/-- Rights classes of R343; `inst n` is INSTANCE of an object that belongs to instance n (none: to no instance). -/
inductive Rights where
  | pub | inst (owner : Option (Fin 128)) | mgr | prov | fleet
  deriving DecidableEq, Repr

/-- Persistence classes of R344. -/
inductive Persist where
  | volatile | persist | vault
  deriving DecidableEq, Repr

/-- Number of counters at each counter index (R390, R391); 0 where the index is no counter unit. -/
def counterSubs (u : Nat) : Nat :=
  if u = 0x2010 ∨ u = 0x2011 ∨ u = 0x2012 ∨ u = 0x2013 then 2
  else if u = 0x2014 then 3
  else if u = 0x2015 then 2
  else if u = 0x2016 then 3
  else if u = 0x2017 ∨ u = 0x2018 then 2
  else if u = 0x2019 then 3
  else if u = 0x201A then 2
  else if u = 0x201B then 3
  else if u = 0x201C then 2
  else if u = 0x201D then 3
  else if u = 0x201E ∨ u = 0x201F then 2
  else if 0x2020 ≤ u ∧ u ≤ 0x2025 then 3
  else if u = 0x2028 ∨ u = 0x2029 then 2
  else if 0x202C ≤ u ∧ u ≤ 0x202F then 2
  else if 0x2030 ≤ u ∧ u ≤ 0x203F then 2
  else if 0x2040 ≤ u ∧ u ≤ 0x2057 then 4
  else if 0x2058 ≤ u ∧ u ≤ 0x205B then 3
  else if 0x2060 ≤ u ∧ u ≤ 0x2067 then 2
  else if 0x2080 ≤ u ∧ u ≤ 0x20FF then 10
  else if 0x2400 ≤ u ∧ u ≤ 0x257F then 3
  else 0

/-- Highest subindex defined at an index (R370 and the tables of 13_catalogue.md); none where the index does not exist (R369). -/
def topSub (i : Nat) : Option Nat :=
  if i = 0x1000 then some 5
  else if i = 0x1010 then some 5
  else if i = 0x1020 then some 0x0B
  else if i = 0x1100 then some 0x52
  else if i = 0x1110 then some 0x11
  else if i = 0x1120 then some 3
  else if 0x1200 ≤ i ∧ i < 0x1280 then some 0x1A
  else if 0x1300 ≤ i ∧ i < 0x1500 then some 0x0A
  else if 0x1500 ≤ i ∧ i < 0x1600 then some 0x0C
  else if i = 0x1600 then some 5
  else if 0x1601 ≤ i ∧ i < 0x1641 then some 3
  else if i = 0x1700 then some 1
  else if i = 0x1800 then some 3
  else if i = 0x1801 then some 2
  else if 0x1810 ≤ i ∧ i < 0x1814 then some 0x80
  else if i = 0x1900 then some 9
  else if i = 0x1920 then some 4
  else if i = 0x1A00 then some 7
  else if i = 0x1B00 then some 5
  else if i = 0x1B10 ∨ i = 0x1B20 ∨ i = 0x1B30 then some 1
  else if i = 0x1B21 then some 2
  else if i = 0x1C00 then some 7
  else if i = 0x1C01 then some 4
  else if i = 0x1D00 then some 4
  else if i = 0x1D01 then some 4
  else if i = 0x1D10 then some 3
  else if i = 0x1E00 then some 4
  else if i = 0x1F00 then some 0x0C
  else if i = 0x1F01 then some 4
  else if i = 0x1F02 then some 8
  else if i = 0x2000 then some 3
  else if i = 0x3000 then some 2
  else if i = 0x5000 then some 6
  else if 0 < counterSubs i then some (counterSubs i)
  else none

/-- The staged field of a subindex 0x03 to 0x0D (R129). -/
def DescField.ofSub : Nat → Option DescField
  | 0x03 => some .credits
  | 0x04 => some .weight
  | 0x05 => some .sqCount
  | 0x06 => some .cqCount
  | 0x07 => some .slotBase
  | 0x08 => some .slotQuota
  | 0x09 => some .edgeQuota
  | 0x0A => some .colours
  | 0x0B => some .tclass
  | 0x0C => some .tcReserve
  | 0x0D => some .consumers
  | _ => none

/-- Objects of instance n (R129). -/
def Obj.ofInst (n : Fin 128) : Nat → Option Obj
  | 0x01 => some (.instState n)
  | 0x02 => some (.instCommand n)
  | 0x0E => some (.instSqBase n)
  | 0x0F => some (.instCqBase n)
  | 0x10 => some (.logBase n)
  | 0x11 => some (.logLow n)
  | 0x12 => some (.logPages n)
  | 0x13 => some (.logEnable n)
  | 0x14 => some (.instHand n)
  | 0x15 => some (.instOutstanding n)
  | 0x16 => some (.instNotice n)
  | 0x17 => some (.selfReset n)
  | 0x18 => some (.pelAccept n)
  | 0x19 => some (.pelMove n)
  | 0x1A => some (.pelResult n)
  | sub => (DescField.ofSub sub).map (.instDesc n)

/-- Objects of global SQ g (R159). -/
def Obj.ofSq (g : Fin 512) : Nat → Option Obj
  | 0x01 => some (.sqState g)
  | 0x02 => some (.sqEnable g)
  | 0x03 => some (.sqBaseAddr g)
  | 0x04 => some (.sqSize g)
  | 0x05 => some (.sqWbAddr g)
  | 0x06 => some (.sqCq g)
  | 0x07 => some (.sqCadence g)
  | 0x08 => some (.sqConsumed g)
  | 0x09 => some (.sqOwner g)
  | 0x0A => some (.sqStopCause g)
  | _ => none

/-- Objects of global CQ q (R160). -/
def Obj.ofCq (q : Fin 256) : Nat → Option Obj
  | 0x01 => some (.cqState q)
  | 0x02 => some (.cqEnable q)
  | 0x03 => some (.cqBaseAddr q)
  | 0x04 => some (.cqSize q)
  | 0x05 => some (.cqTail q)
  | 0x06 => some (.cqVector q)
  | 0x07 => some (.cqIrqMode q)
  | 0x08 => some (.cqIrqCount q)
  | 0x09 => some (.cqIrqDelay q)
  | 0x0A => some (.cqOverflow q)
  | 0x0B => some (.cqStalled q)
  | 0x0C => some (.cqOwner q)
  | _ => none

/-- Objects at indices that stand alone, by index and subindex (13_catalogue.md, R116, R229, R272, R319, R362). -/
def Obj.ofFixed : Nat → Nat → Option Obj
  | 0x1000, 1 => some .ident
  | 0x1000, 2 => some .fingerprint
  | 0x1000, 3 => some .vendor
  | 0x1000, 4 => some .product
  | 0x1000, 5 => some .dieSerial
  | 0x1010, 1 => some .lcState
  | 0x1010, 2 => some .lcRequest
  | 0x1010, 3 => some .lcAuth
  | 0x1010, 4 => some .debugEnable
  | 0x1010, 5 => some .lcChallenge
  | 0x1020, 0x09 => some .tmpLatched
  | 0x1020, 0x0A => some .tmpLevel
  | 0x1020, 0x0B => some .tmpClear
  | 0x1020, k => if h : 1 ≤ k ∧ k ≤ 8 then some (.tmpCfg ⟨k - 1, by omega⟩) else none
  | 0x1100, 0x41 => some .bootEpoch
  | 0x1100, 0x42 => some .journalAnchor
  | 0x1100, k =>
    if h : 1 ≤ k ∧ k ≤ 64 then some (.vcounter ⟨k - 1, by omega⟩)
    else if h : 0x43 ≤ k ∧ k ≤ 0x52 then some (.cardCounter ⟨k - 0x43, by omega⟩) else none
  | 0x1110, 0x0A => some .rootKcv
  | 0x1110, 0x0B => some .ownerAnchor
  | 0x1110, 0x0C => some .rootDelivery
  | 0x1110, 0x0D => some .enrolPub
  | 0x1110, 0x0E => some .recoveryCert
  | 0x1110, 0x0F => some .recoveryAttest
  | 0x1110, 0x10 => some .rootStatus
  | 0x1110, 0x11 => some .anchorRestore
  | 0x1110, k => if h : 1 ≤ k ∧ k ≤ 9 then some (.rootClear ⟨k - 1, by omega⟩) else none
  | 0x1120, 1 => some .fwMeasure
  | 0x1120, 2 => some .fwSvn
  | 0x1120, 3 => some .hostMeasure
  | 0x1600, 1 => some .tcCycleMin
  | 0x1600, 2 => some .tcCycleSeen
  | 0x1600, 3 => some .tcAligned
  | 0x1600, 4 => some .tcPollLoad
  | 0x1600, 5 => some .tcUnits
  | 0x1700, 1 => some .rtLoad
  | 0x1800, 1 => some .edgeEnable
  | 0x1800, 2 => some .chanOwner
  | 0x1800, 3 => some .laneQuar
  | 0x1801, 1 => some .edgeLoad
  | 0x1801, 2 => some .edgeFree
  | 0x1900, 1 => some .s0State
  | 0x1900, 2 => some .s0Cid
  | 0x1900, 3 => some .s0Capacity
  | 0x1900, 4 => some .s1Enable
  | 0x1900, 5 => some .s1Modes
  | 0x1900, 6 => some .s1State
  | 0x1900, 7 => some .s1Mode
  | 0x1900, 8 => some .s1Cid
  | 0x1900, 9 => some .crcRetries
  | 0x1920, 1 => some .recCounter
  | 0x1920, 2 => some .recAppend
  | 0x1920, 3 => some .recLast
  | 0x1920, 4 => some .recStatus
  | 0x1A00, 1 => some .jnlState
  | 0x1A00, 2 => some .jnlFill
  | 0x1A00, 3 => some .jnlCapacity
  | 0x1A00, 4 => some .jnlDayBytes
  | 0x1A00, 5 => some .jnlDayLimit
  | 0x1A00, 6 => some .jnlCompact
  | 0x1A00, 7 => some .jnlTime
  | 0x1B00, 1 => some .updState
  | 0x1B00, 2 => some .runImage
  | 0x1B00, 3 => some .svnFloor
  | 0x1B00, 4 => some .bootResult
  | 0x1B00, 5 => some .updAtWake
  | 0x1B10, 1 => some .updBegin
  | 0x1B20, 1 => some .updSegment
  | 0x1B21, 1 => some .updBitmap
  | 0x1B21, 2 => some .updReceived
  | 0x1B30, 1 => some .updAbandon
  | 0x1C00, 1 => some .pwrState
  | 0x1C00, 2 => some .coastAfter
  | 0x1C00, 3 => some .freewheelAfter
  | 0x1C00, 4 => some .wakeEnable
  | 0x1C00, 5 => some .wakeCounter
  | 0x1C00, 6 => some .backoffTime
  | 0x1C00, 7 => some .wakeStatus
  | 0x1C01, k => if h : 1 ≤ k ∧ k ≤ 4 then some (.wakeKey ⟨k - 1, by omega⟩) else none
  | 0x1D00, 1 => some .pelConfig
  | 0x1D00, 2 => some .pelMember
  | 0x1D00, 3 => some .pelRole
  | 0x1D00, 4 => some .pelStatus
  | 0x1D01, k => if h : 1 ≤ k ∧ k ≤ 4 then some (.pelPeer ⟨k - 1, by omega⟩) else none
  | 0x1D10, 1 => some .fwdEnable
  | 0x1D10, 2 => some .fwdAccept
  | 0x1D10, 3 => some .fwdEngines
  | 0x1E00, 1 => some .tandemRestarts
  | 0x1E00, 2 => some .restartWindow
  | 0x1E00, 3 => some .mgrIrqMask
  | 0x1E00, 4 => some .faultInject
  | 0x1F00, 1 => some .eoaEnable
  | 0x1F00, 2 => some .eoaEtherType
  | 0x1F00, 3 => some .eoaMac
  | 0x1F00, 4 => some .sessionsMax
  | 0x1F00, 5 => some .idleLimit
  | 0x1F00, 6 => some .blockCert
  | 0x1F00, 7 => some .eoaIdPub
  | 0x1F00, 8 => some .anchorClear
  | 0x1F00, 9 => some .anchorPkg
  | 0x1F00, 0x0A => some .anchorStatus
  | 0x1F00, 0x0B => some .sessionClose
  | 0x1F00, 0x0C => some .helloDrops
  | 0x1F01, k => if h : 1 ≤ k ∧ k ≤ 4 then some (.canBind ⟨k - 1, by omega⟩) else none
  | 0x1F02, k => if h : 1 ≤ k ∧ k ≤ 8 then some (.sessionInfo ⟨k - 1, by omega⟩) else none
  | 0x2000, 1 => some .snapSeq
  | 0x2000, 2 => some .snapTime
  | 0x2000, 3 => some .snapBank
  | 0x3000, 1 => some .evtLog
  | 0x3000, 2 => some .evtSeq
  | 0x5000, 1 => some .fwVersion
  | 0x5000, 2 => some .imageA
  | 0x5000, 3 => some .imageB
  | 0x5000, 4 => some .romVersion
  | 0x5000, 5 => some .sentryVersion
  | 0x5000, 6 => some .microcodeVersion
  | _, _ => none

/-- The object at an index and subindex other than 0, where the index exists. -/
def Obj.at (i sub : Nat) : Option Obj :=
  if h : 0x1200 ≤ i ∧ i < 0x1280 then Obj.ofInst ⟨i - 0x1200, by omega⟩ sub
  else if h : 0x1300 ≤ i ∧ i < 0x1500 then Obj.ofSq ⟨i - 0x1300, by omega⟩ sub
  else if h : 0x1500 ≤ i ∧ i < 0x1600 then Obj.ofCq ⟨i - 0x1500, by omega⟩ sub
  else if h : 0x1601 ≤ i ∧ i < 0x1641 then
    let w : Fin 64 := ⟨i - 0x1601, by omega⟩
    match sub with
    | 1 => some (.winSq w)
    | 2 => some (.winOffset w)
    | 3 => some (.winEnable w)
    | _ => none
  else if h : (0x1810 ≤ i ∧ i < 0x1814) ∧ (1 ≤ sub ∧ sub ≤ 128) then
    some (.edgeEntry ⟨(i - 0x1810) * 128 + (sub - 1), by omega⟩)
  else if 0 < counterSubs i ∧ 1 ≤ sub ∧ sub ≤ counterSubs i then some (.counter i sub)
  else Obj.ofFixed i sub

/-- R345 steps 1 and 2: the object a request names, or NO_OBJECT, or NO_SUBINDEX. -/
def Obj.resolve (i sub : Nat) : Except EStatus Obj :=
  match topSub i with
  | none => .error .noObject
  | some top =>
    if sub = 0 then .ok (.highest i top)
    else match Obj.at i sub with
      | some o => .ok o
      | none => .error .noSubindex

/-- Type of an object (R342 and the tables). -/
def Obj.type : Obj → OType
  | .highest _ _ => .uint 1
  | .ident => .uint 8
  | .fingerprint => .octets 16
  | .vendor | .product => .string
  | .dieSerial => .octets 8
  | .lcState => .uint 1
  | .lcRequest => .record 8
  | .lcAuth => .domain 32776 false
  | .debugEnable => .bool
  | .lcChallenge => .octets 16
  | .tmpCfg _ => .record 2
  | .tmpLatched | .tmpLevel | .tmpClear => .uint 1
  | .vcounter _ | .bootEpoch | .journalAnchor | .cardCounter _ => .uint 8
  | .rootClear _ => .octets 32
  | .rootKcv => .octets 72
  | .ownerAnchor => .domain 2049 true
  | .rootDelivery => .domain 4605 true
  | .enrolPub => .domain 1216 true
  | .recoveryCert => .domain 32776 false
  | .recoveryAttest => .domain 32 true
  | .rootStatus => .record 80
  | .anchorRestore => .domain 6867 true
  | .fwMeasure => .octets 48
  | .fwSvn => .uint 4
  | .hostMeasure => .octets 48
  | .instState _ | .instCommand _ => .uint 1
  | .instDesc _ .credits | .instDesc _ .slotBase | .instDesc _ .slotQuota | .instDesc _ .edgeQuota
  | .instDesc _ .consumers => .uint 2
  | .instDesc _ .weight | .instDesc _ .sqCount | .instDesc _ .cqCount | .instDesc _ .tclass => .uint 1
  | .instDesc _ .colours => .record 5
  | .instDesc _ .tcReserve => .record 4
  | .instSqBase _ | .instCqBase _ | .instHand _ | .instOutstanding _ => .uint 2
  | .logBase _ | .logLow _ => .uint 8
  | .logPages _ => .uint 4
  | .logEnable _ | .selfReset _ => .bool
  | .instNotice _ => .record 16
  | .pelAccept _ | .pelResult _ => .uint 1
  | .pelMove _ => .record 8
  | .sqState _ | .sqCq _ | .sqOwner _ | .sqStopCause _ => .uint 1
  | .sqEnable _ | .cqEnable _ | .cqStalled _ => .bool
  | .sqBaseAddr _ | .sqWbAddr _ | .cqBaseAddr _ => .uint 8
  | .sqSize _ | .sqCadence _ | .sqConsumed _ | .cqSize _ | .cqTail _ | .cqIrqDelay _ => .uint 4
  | .cqState _ | .cqVector _ | .cqIrqMode _ | .cqOverflow _ | .cqOwner _ => .uint 1
  | .cqIrqCount _ => .uint 2
  | .tcCycleMin | .tcCycleSeen | .tcPollLoad => .uint 4
  | .tcAligned => .bool
  | .tcUnits => .record 44
  | .winSq _ => .uint 2
  | .winOffset _ => .uint 4
  | .winEnable _ => .bool
  | .rtLoad => .domain 32776 false
  | .edgeEnable => .bool
  | .chanOwner => .octets 96
  | .laneQuar => .uint 1
  | .edgeLoad => .record 32
  | .edgeFree => .uint 2
  | .edgeEntry _ => .record 32
  | .s0State | .s1Modes | .s1State | .s1Mode | .crcRetries | .recCounter => .uint 1
  | .s0Cid | .s1Cid => .octets 16
  | .s0Capacity => .uint 8
  | .s1Enable => .bool
  | .recAppend => .domain 4096 false
  | .recLast => .domain 4096 false
  | .recStatus => .record 24
  | .jnlState | .jnlFill => .uint 1
  | .jnlCapacity | .jnlDayBytes | .jnlDayLimit => .uint 4
  | .jnlCompact => .bool
  | .jnlTime => .uint 8
  | .updState | .runImage | .bootResult => .uint 1
  | .svnFloor => .uint 4
  | .updAtWake => .bool
  | .updBegin => .record 48
  | .updSegment => .domain 65544 false
  | .updBitmap => .octets 128
  | .updReceived => .uint 4
  | .updAbandon => .bool
  | .pwrState | .wakeCounter => .uint 1
  | .coastAfter | .freewheelAfter => .uint 4
  | .wakeEnable => .bool
  | .backoffTime => .uint 2
  | .wakeStatus => .record 16
  | .wakeKey _ => .record 32
  | .pelConfig | .pelMember | .pelRole => .uint 1
  | .pelStatus => .record 4
  | .pelPeer _ => .octets 16
  | .fwdEnable | .fwdAccept => .bool
  | .fwdEngines | .tandemRestarts => .uint 1
  | .restartWindow | .mgrIrqMask => .uint 4
  | .faultInject => .record 8
  | .eoaEnable => .bool
  | .eoaEtherType => .uint 2
  | .eoaMac => .octets 6
  | .sessionsMax => .uint 1
  | .idleLimit => .uint 4
  | .blockCert => .domain 5494 false
  | .eoaIdPub => .domain 2049 true
  | .anchorClear => .domain 2057 true
  | .anchorPkg => .domain 5486 true
  | .anchorStatus => .record 128
  | .sessionClose | .helloDrops => .uint 4
  | .canBind _ => .record 16
  | .sessionInfo _ => .record 40
  | .snapSeq => .uint 8
  | .snapTime => .record 10
  | .snapBank => .uint 1
  | .counter _ _ => .uint 8
  | .evtLog => .domain 8192 false
  | .evtSeq => .uint 4
  | .fwVersion | .romVersion | .sentryVersion | .microcodeVersion => .uint 4
  | .imageA | .imageB => .record 16

/-- Access of an object. -/
def Obj.access : Obj → Access
  | .lcRequest | .lcAuth | .tmpClear | .rootClear _ | .rootDelivery | .anchorRestore | .instCommand _
  | .selfReset _ | .pelMove _ | .rtLoad | .edgeLoad | .edgeFree | .recAppend | .jnlCompact | .updBegin
  | .updSegment | .updAbandon | .wakeKey _ | .faultInject | .anchorClear | .anchorPkg | .sessionClose => .wo
  | .debugEnable | .tmpCfg _ | .vcounter _ | .ownerAnchor | .recoveryAttest | .hostMeasure | .instDesc _ _
  | .logBase _ | .logLow _ | .logPages _ | .logEnable _ | .pelAccept _
  | .sqEnable _ | .sqBaseAddr _ | .sqSize _ | .sqWbAddr _ | .sqCq _ | .sqCadence _ | .sqConsumed _
  | .cqEnable _ | .cqBaseAddr _ | .cqSize _ | .cqTail _ | .cqVector _ | .cqIrqMode _ | .cqIrqCount _ | .cqIrqDelay _
  | .tcCycleMin | .winSq _ | .winOffset _ | .winEnable _ | .edgeEnable | .chanOwner
  | .s1Enable | .s1Modes | .crcRetries | .recCounter | .jnlDayLimit | .svnFloor | .updAtWake
  | .coastAfter | .freewheelAfter | .wakeEnable | .wakeCounter | .backoffTime
  | .pelConfig | .pelMember | .pelPeer _ | .fwdEnable | .fwdAccept | .fwdEngines
  | .tandemRestarts | .restartWindow | .mgrIrqMask
  | .eoaEnable | .eoaEtherType | .eoaMac | .sessionsMax | .idleLimit | .blockCert | .canBind _ => .rw
  | _ => .ro

/-- Persistence of an object; instance 0's staged values persist, the others' do not (R129). -/
def Obj.persistence : Obj → Persist
  | .tmpCfg _ | .edgeEnable | .s1Enable | .s1Modes | .crcRetries | .jnlDayLimit | .updState | .svnFloor
  | .updAtWake | .updBegin | .updBitmap | .updReceived | .coastAfter | .freewheelAfter | .wakeEnable
  | .wakeCounter | .backoffTime | .pelConfig | .pelMember | .pelPeer _ | .fwdEnable | .fwdAccept | .fwdEngines
  | .tandemRestarts | .restartWindow | .mgrIrqMask | .eoaEnable | .eoaEtherType | .eoaMac | .sessionsMax
  | .idleLimit | .blockCert | .anchorClear | .canBind _ | .evtLog | .evtSeq => .persist
  | .vcounter _ | .bootEpoch | .journalAnchor | .cardCounter _ | .rootClear _ | .ownerAnchor | .anchorRestore
  | .wakeKey _ => .vault
  | .instDesc n _ => if n.val = 0 then .persist else .volatile
  | _ => .volatile

/-- Action objects of R371. -/
def Obj.isAction : Obj → Bool
  | .lcRequest | .debugEnable | .hostMeasure | .instCommand _ | .selfReset _ | .pelMove _ | .sqEnable _ | .cqEnable _
  | .edgeLoad | .edgeFree | .tmpClear | .jnlCompact | .updBegin | .updAbandon | .wakeKey _ | .faultInject
  | .sessionClose => true
  | _ => false

/-- A DOMAIN object (R342). -/
def Obj.isDomain (o : Obj) : Bool :=
  match o.type with
  | .domain _ _ => true
  | _ => false

/-- One dictionary request as the service takes it (R345, R351). -/
inductive DReq where
  | bad (st : EStatus)
  | read (o : Obj)
  | write (o : Obj) (data : Bytes)
  | value (o : Obj) (data : Bytes) -- a whole DOMAIN value, as the transfer that carries it stands at LAST
  | segWrite (o : Obj) (first last : Bool) (arg : Nat) (data : Bytes)
  | segRead (o : Obj) (first : Bool) (arg : Nat)
  | abort
  | res (r : DReq) -- r with a reserved bit set (R345 step 6)
  deriving DecidableEq, Repr

end Sys2Proof.Machine
end

