-- ==== Sys2Proof/Machine/State.lean ====
section
/-! DEFINITION. The state of the block as plain data, one structure per group of state, and `State.reset`:
the part as it stands with power present and DIE_RST_N still held, before its first release (DESIGN CHOICE, log entry 1).
Reset values that the spec does not give carry a log entry (INVENTORY.md, State). -/

namespace Sys2Proof.Machine

/-! ## Power, pins, time -/

/-- Power states of R466. -/
inductive PState where
  | run | coast | freewheel | off
  deriving DecidableEq, Repr

/-- How far start-up has come (R435, R492): held in reset, ROM mode (R433), both tandems failed (R26), step 6 reached. -/
inductive Boot where
  | held | romMode | dead | ready
  deriving DecidableEq, Repr

/-- One transfer on the sealed key bus (R65). -/
structure KbTransfer where
  job    : Nat
  cons   : Nat
  cslot  : Nat
  attr   : BitVec 16
  shareA : Bytes
  shareB : Bytes
  deriving DecidableEq, Repr

/-- Outputs the block drives and input levels it acts on (R46). -/
structure Pins where
  kbZeroise  : Bool        -- KB_ZEROISE (R46, R67)
  casBypass  : Bool        -- CAS_BYPASS (R70)
  pmStateReq : BitVec 2    -- PM_STATE_REQ (R79)
  pmDownAck  : Bool        -- PM_DOWN_ACK (R80)
  dbgPermit  : Bool        -- DBG_PERMIT (R56, R96)
  kb         : Option KbTransfer -- KB_VALID and the shares
  tgtRsp     : Bool        -- TGT_RSP: an access has just been answered (R60)
  tgtErr     : Bool        -- TGT_ERR of that answer
  tgtRdata   : Word        -- TGT_RDATA of that answer
  s0Pwr      : Bool        -- S0_PWR_EN
  s0RstN     : Bool        -- S0_RST_N
  s0Clk      : Bool        -- S0_CLK runs
  s1Pwr      : Bool        -- S1_PWR_EN
  s1Vsel     : Bool        -- S1_VSEL
  s1Clk      : Bool        -- S1_CLK runs
  strap      : Bool        -- PEL_LEAD_STRAP as sampled (R71)
  pmDownReq  : Bool        -- PM_DOWN_REQ (R80)
  pmRailsOk  : Bool        -- PM_RAILS_OK (R79)
  pmClksOk   : Bool        -- PM_CLKS_OK (R53)
  wkAck      : Bool        -- WK_ACK: the handshake of the last byte is not over (R72)
  tmpLevel   : BitVec 8    -- TMP_IN lines at their active level (R74)
  sensLevel  : BitVec 4    -- sensors tripped now (R461)
  s1CdHigh   : Bool        -- S1_CD_N high: no card (R68)
  tbValid    : Bool        -- TB_VALID (R77)
  tbTime     : Nat         -- TB_TIME in ns (R77)
  deriving DecidableEq, Repr

/-- What FREEWHEEL retains (R44, R469 step 6). -/
structure Retained where
  manifest  : Bytes   -- bytes 0 to 1,151 of the image, section 0's DIGEST among them (R430, R434)
  section0  : Bytes   -- decrypted
  fwMeasure : Bytes
  fwSvn     : Nat
  image     : Nat
  pseq      : Nat
  deriving DecidableEq, Repr

/-- A FREEWHEEL preparation in progress (R469), steps 1 and 2 begun: who started it, and how far its jobs are. -/
structure Prep where
  byPin    : Bool
  jobsOver : Bool
  wake     : Bool   -- a valid wake frame arrived (R470)
  abandoned : List Nat -- jobs abandoned in step 1 (R82)
  deriving DecidableEq, Repr

/-- What of a start-up comes next (R435): steps 1 and 2, with slot 0 powered; steps 4 and 5, once slot 0 is up; step 6. -/
inductive BootStep where
  | first | load | accept
  deriving DecidableEq, Repr

/-- Power and start-up state. -/
structure Pwr where
  state      : PState
  boot       : Boot
  dieReset   : Bool           -- DIE_RST_N held low
  starting   : Option (BootIn × Option Retained) -- DIE_RST_N has been released, and start-up runs up to step 6 (R435, R492)
  bootStep   : BootStep       -- what of it comes next
  resident   : Bool           -- step 7 of R435 reached
  prep       : Option Prep
  retained   : Option Retained
  wakeInReset : Bool          -- a valid wake frame received during die reset (R73)
  coastCause : Bool           -- a cause of R468 has arrived
  powerLost  : Bool           -- the last reset was a power loss (R81)
  coastSince : Option Nat     -- when COAST was entered, ns
  calmSince  : Option Nat     -- since when the conditions of R467, or in COAST those of R469, have held without a break, ns
  scan       : Bool           -- vault and always-on domain isolated from the scan chains (R56)
  deriving DecidableEq, Repr

/-- Event record of R393, kept decoded. -/
structure Event where
  seq      : Nat
  code     : Nat
  severity : Nat
  inst     : Nat
  time     : Nat
  timeOk   : Bool
  epoch    : Nat
  detail   : Bytes
  deriving DecidableEq, Repr

/-- An event that waits for the next RUN to be logged (R54, R86, R477): code and detail. -/
structure LateEvent where
  code   : Nat
  detail : Bytes
  deriving DecidableEq, Repr

/-- The sentry and the always-on domain (R54, R72, R326, R471 to R477). -/
structure Sentry where
  onRc        : Bool          -- times itself from the RC oscillator
  sclkAbsent  : Bool
  valid       : Nat           -- WAKE_STATUS counts (R382), 32-bit
  invalid     : Nat
  backoffs    : Nat
  backoff     : Option Nat    -- back-off in force until this time, ns
  badTimes    : List Nat      -- times of invalid frames counted toward a back-off, ns
  lastVerify  : Option Nat    -- when the sentry last verified a frame
  maskReserve : Bytes         -- 256 bytes (R326)
  maskDraws   : Nat           -- masks taken from the reserve since it last changed
  degraded    : Bool          -- stepping outside FREEWHEEL has been logged
  late        : List LateEvent
  rx          : Bytes         -- bytes of the wake frame coming in (R72)
  rxLast      : Bool          -- its last byte has come
  rxAt        : Option Nat    -- time of its first WK_REQ, ns (R477)
  deriving DecidableEq, Repr

/-- Tamper class of an input (R74, R374). -/
inductive TmpClass where
  | disabled | alarmOnly | tamper
  deriving DecidableEq, Repr

/-- Class and active level of one tamper input. -/
structure TmpCfg where
  cls  : TmpClass
  high : Bool
  deriving DecidableEq, Repr

/-- Tamper and sensor latches and configuration (R74, R374, R455). -/
structure Tamper where
  cfg      : Vector TmpCfg 8
  latched  : BitVec 8
  sens     : BitVec 4
  deriving DecidableEq, Repr

/-! ## Vault, life cycle, keys -/

/-- A sentry key with the root it descends from (R83, R383). -/
structure SentryKey where
  key  : Bytes
  root : Nat
  deriving DecidableEq, Repr

/-- The vault's contents (R83). A zero vault has `map` false and every item zero or absent. -/
structure Vault where
  map           : Bool                       -- map signature present (R87)
  dus           : Option Bytes
  roots         : Vector (Option Bytes) 9    -- VRT, ORT0 to ORT7
  seqs          : Vector Nat 9               -- delivery sequence numbers
  pendRoots     : Vector (Option Bytes) 9
  anchor        : Option Bytes               -- active owner anchor, 2,049 bytes
  pendAnchor    : Option Bytes
  counters      : Vector Word 64             -- counters 1 to 64
  bootEpoch     : Nat                        -- 64-bit
  journalAnchor : Nat
  cardCounters  : Vector Word 16
  sentry        : Vector (Option SentryKey) 4
  lcSeen        : Nat
  mask          : Bytes                      -- mask word of the last shuffle (R84)
  permKey       : Bytes                      -- permutation key of the last shuffle
  flips         : List (Nat × BitVec 32)     -- how check words differ from those of their items, by item number (R456)
  outside       : List (Nat × Byte)          -- cells outside the map that do not hold zero
  deriving DecidableEq, Repr

/-- Life-cycle states (R90). -/
inductive Lc where
  | blank | provision | field | ret | scrap
  deriving DecidableEq, Repr

/-- Life cycle, debug, measurement (R90 to R97, R116, R434). -/
structure Life where
  fuses       : Nat            -- the thermometer-coded fuse field, 8 bits
  fuse        : Lc             -- the state, as read from it at start-up (R90)
  challenge   : Bytes          -- LC_CHALLENGE
  auth        : Bytes          -- LC_AUTH
  debug       : Bool
  debugSince  : Bool           -- DEBUG_ENABLE has been set since the last die reset (R480)
  hostMeasure : Option Bytes
  attest      : Bytes          -- RECOVERY_ATTEST as it reads
  fwMeasure   : Bytes
  fwSvn       : Nat
  restart     : Bool           -- a transition has asked for the die-level restart (R94)
  vaultLost   : Bool           -- vault found lost and not re-enrolled since (R89)
  deriving DecidableEq, Repr

/-- One occupied key slot run (R110 to R113, R155, R209, R311), held at its first slot number. -/
structure Slot where
  owner      : Fin 128
  hand       : Nat
  usage      : Nat
  ktype      : Nat
  csrc       : Nat          -- counter source: 0 none, 1 BOOT_EPOCH, 2 VAULT_COUNTER
  cnum       : Nat
  fixed      : Bytes        -- GCM fixed field
  shareA     : Bytes
  shareB     : Bytes
  run        : Nat          -- slots of the run
  pinned     : Bool
  depth      : Nat
  limit      : Nat          -- USAGE_LIMIT, 0 none
  used       : Nat
  next       : Nat          -- next invocation value
  stop       : Nat          -- first value beyond the reservation
  first      : Option Nat   -- first value the slot drew (R263)
  last       : Option Nat   -- previous value drawn
  tlsSpent   : Bool         -- serves no further TLS13_SEAL (R263)
  root       : Option Nat   -- root code the key descends from
  test       : Bool         -- TEST mark (R98)
  sealedOnly : Bool
  ownerLabel : Bytes
  path       : Bytes        -- transient slot: the descriptor it was resolved from
  used_at    : Nat          -- for least-recently-used order (R112)
  evicting   : Option Nat   -- the KEY_EVICT job under way (R114)
  movedIn    : Bool         -- installed held by a slot move (R156)
  deriving DecidableEq, Repr

/-- What a new slot takes from the operation that makes it (R209). -/
structure NewKey where
  key    : Bytes
  usage  : Nat
  ktype  : Nat
  csrc   : Nat
  cnum   : Nat
  fixed  : Bytes
  pinned : Bool
  depth  : Nat
  limit  : Nat
  root   : Option Nat
  path   : Bytes
  sealedOnly : Bool
  label  : Bytes
  deriving DecidableEq, Repr

/-- One intermediate node of the derivation cache (R104). -/
structure Node where
  root : Nat
  path : Bytes
  key  : Bytes
  deriving DecidableEq, Repr

/-- The key cache (R110 to R115). -/
structure Keys where
  slots  : List (Nat × Slot)   -- by first slot number
  gone   : List (Nat × Slot)   -- by handle: slots emptied with their root, while jobs that resolved them run (R124)
  gens   : List (Nat × Nat)    -- generations that differ from 1, by slot number
  nodes  : List Node           -- at most 64, newest first
  serial : Nat                 -- next resolution serial (R106)
  clock  : Nat                 -- order of slot uses
  deriving DecidableEq, Repr

/-! ## Instances and rings -/

/-- States of R130. -/
inductive IState where
  | free | configured | active | quiescing | resetting | failed
  deriving DecidableEq, Repr

/-- Values of subindices 0x03 to 0x0D (R129). -/
structure Desc where
  credits   : Nat
  weight    : Nat
  sqCount   : Nat
  cqCount   : Nat
  slotBase  : Nat
  slotQuota : Nat
  edgeQuota : Nat
  colours   : Bytes      -- count, then four colours
  tclass    : Nat
  tcReserve : Bytes      -- CS, CE, DE, LF
  consumers : Nat
  deriving DecidableEq, Repr

/-- One dirty-page log bit to set (R151), from the write whose response returned. -/
structure LogBit where
  write : Nat     -- identity of the logged write
  bank  : Bool
  page  : Nat
  deriving DecidableEq, Repr

/-- The log update in progress: the line read or written (R151), and the identity its check by the region table had (R337). -/
structure LogOp where
  bit  : LogBit
  line : Nat
  id   : Nat
  chk  : Nat
  writing : Bool
  deriving DecidableEq, Repr

/-- Direct-feed states (R295). -/
inductive DfState where
  | idle | openS | busy | done | failed
  deriving DecidableEq, Repr

/-- Direct feed of an instance (R290 to R300). -/
structure Df where
  state   : DfState
  alg     : Nat
  compare : Bool
  outLen  : Nat
  err     : Nat
  total   : Nat
  key     : Option Nat     -- slot number of an HMAC session
  msg     : Bytes          -- bytes accepted
  buffered : Nat           -- bytes in the input buffer not yet absorbed
  expect  : Vector (Option Word) 8
  result  : Vector Word 8
  engine  : Option Nat     -- digest engine holding the context; none in a session that runs: it waits for one (R299)
  buffer  : Option Nat     -- direct-feed buffer of 0 to 31
  failedOn : List Nat      -- engines on which the present block failed its comparison (R254, R299)
  deriving DecidableEq, Repr

/-- How far an open slot move is (R156): the source has sent the slots, or its commit; the destination holds them. (DESIGN CHOICE, log entry 30.) -/
inductive MoveAt where
  | sent | committed | held
  deriving DecidableEq, Repr

/-- An open slot move: the member and instance at the other side. -/
structure PelMove where
  member : Fin 4
  inst   : Fin 128
  at_    : MoveAt
  deriving DecidableEq, Repr

/-- One instance (R129 to R156, R174 to R176). -/
structure Inst where
  staged      : Desc
  live        : Desc
  state       : IState
  quiesced    : Bool
  credits     : Nat            -- live credit count
  drawn       : Nat            -- credits drawn from the pool, above `credits` while SHARE_PENDING
  outstanding : Nat
  hand        : Nat
  errCode     : Nat            -- INST_ERR (R139)
  errMore     : Bool
  errPage     : Nat
  noticeCode  : Nat            -- NOTICE
  noticeAddr  : Nat
  sqBase      : Option Nat
  cqBase      : Option Nat
  logBase     : Word
  logLow      : Word
  logPages    : Nat
  logEnable   : Bool
  logBank     : Bool
  logOverflow : Bool
  logQ        : List LogBit
  logOp       : Option LogOp
  fence       : Option Nat     -- BUSY: accesses with an identity below this are covered (R140)
  invalSq     : Nat            -- RING_INVAL_STATUS (R176)
  invalAt     : Half
  invalDone   : Bool
  pelAccept   : Nat
  pelResult   : Nat
  pelPeer     : Option PelMove   -- the open move
  resetStep   : Nat            -- 0 none, 1 engines stopping, 2 stopped: waiting for responses (R144)
  destroying  : Bool           -- the reset under way is part of a DESTROY (R131)
  vtime       : Rat            -- V of R234
  wasEligible : Bool
  rr          : Nat            -- local SQ served last (R228)
  df          : Df
  deriving DecidableEq, Repr

/-- SQ states (R159). -/
inductive SqSt where
  | disabled | enabled | draining | deferred | stopped
  deriving DecidableEq, Repr

/-- One ring read in flight: its accesses (two where it crosses a 4 KiB boundary), the counter of its first unit of interest,
how many units from there, the bytes before that unit in its line (R169), and whether a hold, a reset or a refused second
access has made it one to discard (R169, R176). -/
structure RingRead where
  ids     : List Nat
  at_     : Half
  units   : Nat
  skip    : Nat
  discard : Bool
  deriving DecidableEq, Repr

/-- One entry cached whole: counter of its unit 0, its bytes (R172), and the offset of a byte poisoned in two reads. -/
structure Cached where
  at_    : Half
  bytes  : Bytes
  poison : Option Nat
  deriving DecidableEq, Repr

/-- One SQ (R159, R166 to R176, R187). -/
structure Sq where
  owner     : Option (Fin 128)
  state     : SqSt
  base      : Nat
  size      : Nat
  wbAddr    : Nat
  cq        : Nat
  cadence   : Nat
  consumed  : Half
  stopCause : Nat
  slice     : List Cached
  seen      : List (Half × Nat) -- counter and LEN_UNITS of entries the last read showed valid (R170)
  full      : Option Nat       -- LEN_UNITS of a confirmed entry that finds no room in the slice
  bad       : Option (Half × Bytes) -- confirmed header of bad length, and its unit 0 (R173)
  reading   : Option RingRead
  again     : Bool             -- a window's poll fell due while a read was in flight (R233)
  hold      : Option Half      -- FIRST of the hold in force
  poisoned  : List Half        -- units from `consumed` on found poisoned in one read (R446, R493)
  wbFlight  : Option Nat       -- identity of the write-back in flight
  wbDue     : Bool
  walkEnd   : Half             -- c0 + size of R187
  walking   : Bool             -- step 3 of R187 is not over
  shutLast  : Option Nat       -- write of the last completion of the shutdown in the CQ, where it was not yet counted (R184)
  deriving DecidableEq, Repr

/-- One completion held in an overflow area, with its counting for interrupts, and the SQ whose shutdown wrote it (R184). -/
structure Held where
  bytes   : Bytes
  counted : Bool
  inst    : Fin 128
  shut    : Option (Fin 512)
  deriving DecidableEq, Repr

/-- Interrupt settings of a CQ that take effect at a counted completion (R161). -/
structure IrqSet where
  vector : Nat
  count  : Nat
  delay  : Nat
  deriving DecidableEq, Repr

/-- One CQ (R160, R181 to R184). -/
structure Cq where
  owner    : Option (Fin 128)
  enabled  : Bool
  base     : Nat
  size     : Nat
  tail     : Half
  head     : Half
  headErr  : Bool
  vector   : Nat
  irqMode  : Nat
  irqCount : Nat
  irqDelay : Nat
  irqNow   : IrqSet       -- the settings in force (R161)
  overflow : List Held
  stalled  : Bool
  reserved : Nat
  armed    : Bool
  counted  : Nat
  acks     : List Nat     -- counted completions whose write response has not returned
  timer    : Bool
  expired  : Bool
  deriving DecidableEq, Repr

/-! ## Jobs and units -/

/-- Operand parts of a job's input (R219). -/
inductive Part where
  | listS | listD | src | aad | tag | expect | b | c | d
  deriving DecidableEq, Repr

/-- One access of a job's input (R333): where it lies in its operand, and its bytes once returned. -/
structure Piece where
  id   : Nat
  part : Part
  addr : Nat
  off  : Nat
  len  : Nat
  data : Option Bytes
  bad  : Option Nat -- offset in the access of the first poisoned byte
  deriving DecidableEq, Repr

/-- A fragment of R200, or a whole buffer. -/
structure Frag where
  addr    : Nat
  len     : Nat
  discard : Bool
  deriving DecidableEq, Repr

/-- Where a job stands. -/
inductive Phase where
  | assigned | resolving | lists | context | data | busWait | bus | evicting | keygen | forwarded | draining
  deriving DecidableEq, Repr

/-- One job (R142, R194, R215, R242). -/
structure Job where
  id        : Nat
  inst      : Fin 128
  sq        : Fin 512
  cq        : Fin 256
  hand      : Nat
  dropped   : Bool            -- superseded mark of R142 and R187
  tc        : Bool
  seqr      : Option (Fin 16)
  unplaced  : Bool            -- its sequencer has gone and no other has room for it yet (R19, R228, R235)
  raw       : Bytes
  at_       : Half            -- counter of unit 0
  chain     : Nat             -- identity of the chain's first job
  member    : Nat             -- position in the chain, PADs ignored
  waiting   : Bool            -- a chain member not yet started (R215)
  irq       : Bool
  phase     : Phase
  consumers : Nat             -- CONSUMERS of its instance at dispatch (R149)
  prev      : Option Nat      -- chain result handle (R195)
  key       : Option Nat      -- slot number the job resolved
  goneKey   : Option Nat      -- handle of the slot the job resolved, once its root was replaced (R124)
  keyCopy   : Option Slot     -- what the slot held when the job resolved it (R124)
  pend      : Option NewKey   -- key of a resolved path that has no slot before step 7 of R194
  stale     : Bool            -- its resolution, or its key in use, was erased (R104, R256)
  dead      : Option (Status × Nat)  -- status and RESULT it will end with (key poisoned or erased)
  srcL      : List Frag
  dstL      : List Frag
  pieces    : List Piece
  src       : Bytes
  aad       : Bytes
  tagIn     : Bytes
  expect    : Bytes
  opB       : Bytes
  opC       : Bytes
  opD       : Bytes
  offset    : Nat             -- payload offset of the last checkpoint
  released  : Nat             -- output bytes released
  out       : Bytes           -- output a held job keeps in its pages
  drawn     : Option Nat      -- invocation value drawn
  engine    : Option Nat      -- engine number on which it holds a context
  pages     : Nat             -- hold pages drawn
  failedOn  : List Nat        -- engines whose run of the present chunk or job failed (R254)
  refetched : Bool            -- input fetched again after poison (R35)
  pub       : Bytes           -- PK_KEYGEN: public key; other outputs pending release
  run       : Nat             -- slot run reserved (R312)
  runAt     : Nat
  path      : Bytes           -- path being resolved
  ending    : Option (Status × Nat)
  member4   : Option (Fin 4)  -- peloton member it was forwarded to
  deriving DecidableEq, Repr

/-- A chain sequencer (R225, R228, R235), and the KiB of its cluster's staging set apart for it (R223). -/
structure Seqr where
  owner   : Option (Fin 128)
  staging : Nat
  deriving DecidableEq, Repr

/-- An engine or edge lane: TC owner, strikes and quarantine (R255), contexts by job in round-robin order, the job whose
quantum runs and the newcomers that the next boundaries serve (R237), the job whose context is loaded (R113), hold pages in use (R249), fault to inject (R387). -/
structure Engine where
  owner    : Option (Fin 128)
  strikes  : Nat
  quar     : Bool
  contexts : List Nat
  serving  : Option Nat
  newest   : List Nat
  loaded   : Option Nat
  pages    : Nat
  inject   : Bool
  deriving DecidableEq, Repr

/-- Sequencers, engines (CE 0 to 15, DE 16 to 23, LF 24 to 27, EL 28 to 35), cluster fences. -/
structure Units where
  cs       : Vector Seqr 16
  eng      : Vector Engine 36
  fenced   : Vector Bool 4
  rebuild  : Bool               -- a TC rebuild is due (R226)
  short    : Nat                -- POOL_SHORT (R128), bits 8 to 0
  degraded : List (Fin 128)     -- reservations that could not be rebuilt whole (R20)
  misses   : List (Nat × Nat)   -- engine and time of failed comparisons not yet spent on an alarm (R256)
  deriving DecidableEq, Repr

/-! ## Fabric, interrupts -/

/-- What a fabric read is for. -/
inductive ReadFor where
  | ring (g : Fin 512)
  | job (j : Nat)
  | log (n : Fin 128)
  deriving DecidableEq, Repr

/-- A read of a requester port (R38, R57): on its way (`out`), or waiting for one of the 256 places of R59. -/
structure Rd where
  id   : Nat
  inst : Fin 128
  tc   : Bool
  port : Nat
  addr : Nat
  len  : Nat
  what : ReadFor
  out  : Bool
  poison : Bool     -- its request word was poisoned (R34, R448)
  deriving DecidableEq, Repr

/-- What a fabric write is. -/
inductive WriteFor where
  | data (j : Nat) (g : Fin 512)
  | completion (q : Fin 256)
  | writeBack (g : Fin 512)
  | log (n : Fin 128)
  deriving DecidableEq, Repr

/-- A posted write whose response has not returned: on its way (`out`), or waiting for one of the 256 places of R59. -/
structure Wr where
  id     : Nat
  inst   : Fin 128
  tc     : Bool
  port   : Nat
  addr   : Nat
  data   : Bytes
  what   : WriteFor
  logged : Bool     -- issued while LOG_ENABLE was 1 (R150, R152)
  out    : Bool
  poison : Bool     -- a word of it was poisoned on its way out (R34, R448)
  deriving DecidableEq, Repr

/-- Fabric requester ports. -/
structure Fab where
  reads  : List Rd
  writes : List Wr
  nextId : Nat
  deriving DecidableEq, Repr

/-- Completion interrupts (R62). -/
structure Irq where
  shown   : Option (Fin 128 × Nat)
  waiting : List (Fin 128 × Nat)
  deriving DecidableEq, Repr

/-! ## Region table, counters, dictionary -/

/-- One region table entry (R327 to R330). -/
structure RtEntry where
  addr  : Word
  attr  : Word
  label : Word
  deriving DecidableEq, Repr

/-- Region table and its fence (R327, R337). -/
structure Rt where
  entries : Vector RtEntry 1024
  fence   : Option Nat     -- BUSY: accesses with an identity below this are covered
  deriving DecidableEq, Repr

/-- Counters and snapshots (R388 to R391, R462 to R464). Keys are index × 256 + subindex; an absent key counts 0. -/
structure Cnt where
  now     : List (Nat × Nat)
  latched : List (Nat × Nat)
  bank0   : List (Nat × Nat)
  bank1   : List (Nat × Nat)
  bank    : Bool
  seq     : Nat
  time    : Nat            -- SNAP_TIME in ns; timeOk false: zero
  timeOk  : Bool
  strobe  : Nat
  strobeOk : Bool
  busy    : Bool
  pending : Bool
  period  : Nat
  fifo    : Nat      -- the model's own: index of the free values that FIFO occupancies of the served bank read (DESIGN CHOICE, log entry 4)
  deriving DecidableEq, Repr

/-- A mailbox (R347 to R350). -/
structure Mailbox where
  busy   : Bool
  done   : Bool
  more   : Bool
  status : Nat
  rlen   : Nat
  total  : Nat
  doneBytes : Nat
  buffer : Bytes
  deriving DecidableEq, Repr

/-- An open segmented transfer (R351, R352). -/
structure Transfer where
  who   : Who
  obj   : Obj
  write : Bool
  total : Nat
  data  : Bytes     -- bytes accepted, or the snapshot
  pos   : Nat       -- bytes served of a snapshot
  deriving DecidableEq, Repr

/-- One answered operation of a batch (R358). -/
structure OpRec where
  status : EStatus
  index  : Nat
  sub    : Nat
  last   : Bool
  arg    : Nat
  data   : Bytes
  deriving DecidableEq, Repr

/-- One operation of a batch (R357). -/
structure Op where
  index : Nat
  sub   : Nat
  write : Bool     -- OP is WRITE
  req   : DReq
  deriving DecidableEq, Repr

/-- The batch the service is working on. -/
structure Batch where
  k      : Fin 8
  num    : Nat     -- its session's number
  seq    : Nat
  count  : Nat
  atomic : Bool
  rest   : List Op
  done   : List OpRec
  view   : Option Cnt -- the counters as they were served, where a snapshot has ended since the batch began (R465)
  deriving DecidableEq, Repr

/-- A journal commit in progress (R422): the requester to answer, the writes it carries, and its bytes. -/
structure Commit where
  who    : Option Who
  writes : List (Obj × Bytes)
  batch  : Option Batch    -- the atomic batch it belongs to (R355)
  segment : Option Nat     -- update segment bit (R436)
  arg    : Nat             -- bytes accepted of the transfer that carried the value (R358)
  started : Bool           -- its group is in flight; else it waits for slot 0 or for a group of the block's own
  deriving DecidableEq, Repr

/-- What waits for the dictionary service (R353). -/
inductive Waiting where
  | single (w : Who) (r : DReq)
  | batch (b : Batch)
  deriving DecidableEq, Repr

/-- The dictionary service (R347 to R355). -/
structure Dict where
  mgrBox   : Mailbox
  boxes    : Vector Mailbox 128
  transfers : List Transfer
  commit   : Option Commit
  appendBy : Option Who        -- REC_APPEND in process (R378)
  batch    : Option Batch
  waiting  : List Waiting
  readout  : Bytes             -- value of the last READ or SEG_READ answered
  last     : EStatus           -- status of the last request answered
  deriving DecidableEq, Repr

/-! ## Configuration objects -/

/-- A TC window (R229). -/
structure Win where
  sq     : Nat
  offset : Nat
  on     : Bool
  polled : Option Nat -- start of the cycle in which it was last polled, ns (R231)
  deriving DecidableEq, Repr

/-- An EOA anchor slot (R362, R363). -/
structure Anchor where
  roles : Nat
  seq   : Nat
  ec    : Bytes
  pq    : Bytes
  deriving DecidableEq, Repr

/-- Values of configuration objects held outside their unit. -/
structure Cfg where
  tcCycleMin     : Nat
  windows        : Vector Win 64
  edgeEnable     : Bool
  chanOwner      : Vector (Option (Fin 128)) 96
  s1Enable       : Bool
  s1Modes        : BitVec 8
  crcRetries     : Nat
  recCounter     : Fin 16
  jnlDayLimit    : Nat
  svnFloor       : Nat
  updAtWake      : Bool
  coastAfter     : Nat
  freewheelAfter : Nat
  wakeEnable     : Bool
  wakeCounter    : Nat
  backoffTime    : Nat
  pelConfig      : Nat
  pelMember      : Nat
  pelPeers       : Vector Bytes 4
  fwdEnable      : Bool
  fwdAccept      : Bool
  fwdEngines     : Nat
  tandemRestarts : Nat
  restartWindow  : Nat
  mgrIrqMask     : BitVec 32
  eoaEnable      : Bool
  eoaEtherType   : Nat
  eoaMac         : Bytes
  sessionsMax    : Nat
  idleLimit      : Nat
  blockCert      : Bytes
  anchors        : Vector (Option Anchor) 8
  canBinds       : Vector Bytes 4
  deriving DecidableEq, Repr

/-! ## Journal, slot 0, update -/

/-- S0_STATE (R377). -/
inductive S0St where
  | off | init | ready | sleep | failed
  deriving DecidableEq, Repr

/-- JNL_STATE (R379). -/
inductive JSt where
  | none | recovering | ready | compacting | budgetHeld | failed
  deriving DecidableEq, Repr

/-- What a journal record carries (R420). -/
inductive JRec where
  | value (o : Obj) (data : Bytes)
  | event (e : Event)
  | segment (s : Nat)
  deriving DecidableEq, Repr

/-- A durable group of journal pages (R419, R421), held decoded with the root it is keyed under. -/
structure Group where
  first    : Nat       -- PSEQ of its first and last page
  last     : Nat
  snapshot : Bool
  snapPseq : Nat       -- SNAP_PSEQ
  epoch    : Nat
  root     : Bytes     -- DUS the keys descend from
  winTb    : Bool      -- WIN_START is a TB_TIME
  winStart : Nat
  winBytes : Nat
  recs     : List JRec
  deriving DecidableEq, Repr

/-- State of an image slot (R395, R431). -/
inductive ImgSt where
  | empty | valid | rejected
  deriving DecidableEq, Repr

/-- An image slot of slot 0: its bytes and what the selection says of it. -/
structure Image where
  bytes   : Bytes
  version : Nat
  svn     : Nat
  state   : ImgSt
  deriving DecidableEq, Repr

/-- UPD_STATE (R380). -/
inductive UpdSt where
  | idle | receiving | staged | failed
  deriving DecidableEq, Repr

/-- The selection (R431): the ACTIVE image, TRIAL, and VERSION, SVN and state of both images. (DESIGN CHOICE, log entry 50.) -/
structure Selection where
  active : Nat
  trial  : Bool
  images : Vector (Nat × Nat × ImgSt) 2
  deriving DecidableEq, Repr

/-- RPMB of slot 0 (R402, R423): its key once programmed, write counter, half-sectors; half-sector 1 is kept decoded, since the spec
gives no layout of it. (DESIGN CHOICE, log entry 50.) -/
structure Rpmb where
  key      : Option Bytes
  counter  : Nat
  foreign  : Bool
  half0    : Bytes
  half1    : Option Selection
  deriving DecidableEq, Repr

/-- A command to a card (R396, R404): its number, an application command or not, and its argument. -/
structure CardCmd where
  app : Bool
  num : Nat
  arg : Nat
  deriving DecidableEq, Repr

/-- A write to slot 0 that the device may still be busy with, by what stood there before (R401). -/
inductive S0Write where
  | segment (n : Nat) (old : Bytes)
  | half0 (old : Bytes)
  | half1 (old : Option Selection)
  deriving DecidableEq, Repr

/-- Journal, firmware images and update (R377, R379, R380, R398 to R440). -/
structure Jnl where
  s0State   : S0St
  s0Slept   : Bool
  s0Init    : Option S0In    -- an initialisation in process (R398)
  s0Cycle   : Bool           -- it waits for the 2 ms of VCC off (R400, R407)
  s0Waits   : Bool           -- PERSIST writes wait for READY, a power-down having been abandoned (R82)
  s0Hs200   : Bool           -- 8-bit bus in HS200 (R396)
  s0Cache   : Bool           -- the device's cache has not been switched off (R396)
  s0Cmds    : List CardCmd   -- commands of the last operation
  s0Busy    : Option S0Write -- the last write, unless the device is known to have ended busy for it
  s0Cid     : Bytes
  s0Cap     : Nat
  s0Stage   : Nat            -- stage of R407 reached by the failing transfer
  s0Tries   : Nat
  state     : JSt
  groups    : List Group     -- on the device, oldest first
  headDue   : Option Nat     -- after the awake path, the retained position that the head page is still to agree with (R435 step 4)
  inFlight  : Option Group   -- pages being written (R422 step 1)
  sent      : Bool           -- they have left the tandem's output buffer (R452)
  pseq      : Nat            -- PSEQ of the newest page
  snapPseq  : Nat
  sinceSnap : Nat            -- bytes of groups since the snapshot
  snapAsked : Bool           -- a compaction asked for waits for room in the budget (R426)
  dayBytes  : Nat
  winStart  : Nat
  winOpen   : Bool
  winTb     : Bool
  winElapsed : Nat           -- elapsed in the window, in RUN, COAST and FREEWHEEL, ns (R425)
  heldRecs  : List JRec      -- values of the block's own that wait for a group (R426)
  half0Due  : Bool           -- RPMB frames that wait for room in the budget (R426)
  half1Due  : Bool
  time      : Nat            -- JNL_TIME
  heldEvents : List Event
  events    : List Event     -- the log, oldest first
  evtSeq    : Nat
  rpmb      : Rpmb
  active    : Nat            -- ACTIVE image, 0 A or 1 B
  trial     : Bool
  images    : Vector Image 2
  runImage  : Nat
  bootResult : Nat
  updState  : UpdSt
  updLen    : Nat
  updSeg    : Nat
  updSvn    : Nat
  updId     : Bytes
  updMap    : List Nat       -- segments stored
  staging   : List (Nat × Bytes)   -- stored bytes by segment
  updOpen   : Option (Who × Nat × Bytes)  -- streaming transfer: requester, total, bytes so far
  deriving DecidableEq, Repr

/-! ## Card slot 1 -/

/-- S1_STATE (R377). -/
inductive S1St where
  | empty | debounce | init | ready | powerOff | failed | disabled
  deriving DecidableEq, Repr

/-- Phase of a REC_APPEND (R415). -/
inductive AppPhase where
  | data | busy | readBack
  deriving DecidableEq, Repr

/-- The append in process: counter, record number, record bytes, payload. -/
structure Append where
  counter : Fin 16
  number  : Nat
  bytes   : Bytes
  payload : Bytes
  phase   : AppPhase
  tries   : Nat
  retuned : Bool
  sent    : Bool   -- its commands have left the tandem's output buffer (R452)
  deriving DecidableEq, Repr

/-- Finding of the insertion check for one counter (R377, R414). -/
structure RecInfo where
  cardValue : Nat
  check     : Nat
  last      : Bytes     -- REC_LAST payload
  deriving DecidableEq, Repr

/-- Slot 1 and the fleet card (R377, R404 to R417). -/
structure Card where
  state  : S1St
  mode   : Nat           -- 0xFF when not READY
  cid    : Bytes
  supported : BitVec 8   -- modes of the card
  permitted : BitVec 8   -- S1_MODES as it stood at the initialisation (R377)
  init   : Option CardIn -- what the initialisation in process finds (R405)
  initTries : Nat        -- retries of a transfer of the initialisation in its mode (R407)
  initTuned : Bool
  rca    : Nat           -- address of the card
  cmds   : List CardCmd  -- commands of the last operation
  recs   : Vector RecInfo 16
  append : Option Append
  deriving DecidableEq, Repr

/-! ## Faults, random generation -/

/-- What reaches a tandem through its exchange (R451). (DEDUCED, log entry 45.) -/
inductive Sample where
  | pdu (raw : Bytes)              -- an EOA PDU, with its frame
  | request (w : Who) (r : DReq)   -- a mailbox request
  | tick                           -- a timer tick
  | interrupt                      -- an interrupt from another domain
  | tbTime (t : Nat)               -- a read of TB_TIME
  | random (b : Bytes)             -- random values
  deriving DecidableEq, Repr

/-- One tandem (R23, R449 to R454). -/
structure Tandem where
  inService : Bool
  restarts  : List Nat   -- times of restarts, ns
  sinceCkpt : Bool       -- a restart has happened and no checkpoint since (R453)
  log       : List (Nat × Sample) -- input log: each exchanged input with its lockstep cycle, since the last checkpoint (R451, R452)
  deriving DecidableEq, Repr

/-- Fault summary and alarms (R456 to R460). -/
structure Flt where
  causes    : BitVec 24   -- bits 3 to 23 of FAULT_SUMMARY; bits 2 to 0 follow the latches
  tandems   : Vector Tandem 2
  lastKeys  : Option Nat  -- time of the last KEYS alarm, ns
  dataHalt  : Bool
  fifo      : List Nat    -- crossing FIFOs whose next word is to carry an injected two-bit error (R387)
  deriving DecidableEq, Repr

/-- Random generator (R323 to R325). -/
structure Rng where
  seeded    : Bool
  key       : Bytes           -- Key of the CTR_DRBG, 32 bytes (R323)
  v         : Bytes           -- V of the CTR_DRBG, 16 bytes
  pers      : Bytes           -- personalisation string of the instantiation
  src       : Vector Bool 2   -- source in use
  requests  : Nat             -- generate requests since the last reseed
  disagreed : Nat             -- times the two datapaths have disagreed since the die reset (R325)
  tcReserve : Nat             -- bytes in the TC reserve
  deriving DecidableEq, Repr

/-! ## Edge unit -/

/-- An edge key table entry (R272, R273). -/
structure EdgeEntry where
  owner    : Fin 128
  chan     : Nat
  dataId   : Nat
  mode     : Nat        -- bit 0 DIR, bit 1 FVSRC
  macBits  : Nat
  txBits   : Nat
  fvLen    : Nat
  fvLast   : Nat
  window   : Nat
  shareA   : Bytes
  shareB   : Bytes
  root     : Option Nat
  accepts  : Nat
  macFails : Nat
  freshFails : Nat
  load     : Nat        -- the model's own: which load made the entry (R273: a replaced entry is another)
  deriving DecidableEq, Repr

/-- A frame of the edge unit, with the entry it started under (R273). -/
structure EdgeJob where
  frame : OflFrame
  entry : Option (Nat × EdgeEntry)
  runs  : Nat
  avoid : List Nat        -- lanes whose datapaths disagreed on it
  poison : Bool           -- a word of it crossed the offload port poisoned (R447)
  deriving DecidableEq, Repr

/-- Edge unit (R267 to R277). -/
structure Edge where
  table    : List (Nat × EdgeEntry)
  queue    : List EdgeJob
  lanes    : Vector (Option EdgeJob) 8
  verdicts : List (Nat × Bytes)   -- channel and verdict beat: the first is presented on OFL_TX, the rest wait (R275)
  loads    : Nat                  -- the model's own: number of the next load
  deriving DecidableEq, Repr

/-! ## EOA -/

/-- A session or an opening (R362, R365 to R368). -/
structure Session where
  number   : Nat
  opened   : Bool
  via      : Via
  port     : Nat
  anchor   : Option Nat           -- slot of the client's certificate, once it is known
  roles    : Nat
  subject  : Bytes
  clientEc : Bytes
  clientPq : Bytes
  frags    : List (Nat × Bytes)   -- handshake fragments received
  nfrag    : Nat
  msgLen   : Nat
  hello    : Bytes                -- transcript
  reply    : Bytes
  secret   : Bytes                -- S of R366 before FINISH
  kIn      : Bytes
  kOut     : Bytes
  ivIn     : Bytes
  ivOut    : Bytes
  lastSeq  : Nat
  stored   : Option Bytes         -- response to lastSeq
  inProcess : Bool
  drops    : Nat
  lastTime : Nat
  deriving DecidableEq, Repr

/-- A PDU for the network, in its transport. -/
structure EoaOut where
  via  : Via
  port : Nat
  pdu  : Bytes
  deriving DecidableEq, Repr

/-- ISO 15765-2 state of one binding (R361). -/
structure IsoTp where
  rxTotal : Nat
  rx      : Option Bytes
  rxSn    : Nat
  rxBlock : Nat               -- consecutive frames left before the next flow control, 0 for no limit
  tx      : Option Bytes      -- bytes of the response still to send
  txSn    : Nat
  queue   : List Bytes        -- PDUs that wait for the transmission under way
  deriving DecidableEq, Repr

/-- The EOA service (R356 to R368). -/
structure Eoa where
  sessions  : Vector (Option Session) 8
  nextNum   : Nat
  hellos    : List Nat           -- times of HELLO messages in the last minute, ns
  helloDrops : Nat
  held      : List EoaOut        -- in the tandem's output buffer (R452)
  out       : List Bytes         -- frames that leave on channel 96, each with its descriptor beat (R359)
  taken     : Nat                -- bytes of the first of them already taken (R63)
  tp        : Vector IsoTp 4
  deriving DecidableEq, Repr

/-! ## Cascade -/

/-- PEL_ROLE (R384). -/
inductive Role where
  | solo | lead | follower | cutOff
  deriving DecidableEq, Repr

/-- What a cascade frame carries (R483): an enrolment message, a protected body, or the bytes of a frame passed on. -/
inductive CasBody where
  | enrol1 (msg : Bytes)
  | enrol2 (msg : Bytes)
  | enrol3 (msg : Bytes)
  | pairKeys (members : List (Fin 4)) (keys : List (Fin 4 × Bytes))
  | heartbeat | heartbeatAck
  | capacity (n : Nat)
  | fwdJob (job : Nat) (w : FwdWork)
  | fwdResult (job : Nat) (r : PkOut)
  | fwdCancel (job : Nat)
  | slotInstall (srcInst dstInst : Fin 128) (base quota : Nat) (counters : List (Nat × Nat)) (slots : List MovedSlot)
  | slotCommit (dstInst : Fin 128)
  | slotConfirm (srcInst : Fin 128)
  | slotRefuse (srcInst : Fin 128)
  | passed (type : Byte) (wire : Bytes)
  deriving DecidableEq, Repr

/-- A frame sent, kept until its acknowledgement (R482). -/
structure CasOut where
  src   : Fin 4
  dst   : Fin 4
  ctr   : Nat
  body  : CasBody
  key   : Bytes             -- the pair key it is sealed under; empty for an enrolment message or a frame passed on
  tries : Nat
  deriving DecidableEq, Repr

/-- An enrolment under way (R484). -/
structure Enrol where
  eph   : Bytes             -- own ephemeral X25519 key
  pub   : Bytes             -- ENROL_PUB and ephemeral public key of the other side, once they have come
  epk   : Bytes
  msgs  : Bytes             -- the messages so far, one after the other
  ss    : Bytes             -- shared secret encapsulated to the lead
  since : Nat               -- time of its first message, ns
  deriving DecidableEq, Repr

/-- One side of the pair with another member (R483, R484). -/
structure Peer where
  status : Nat              -- PEL_STATUS of the member
  key    : Option Bytes
  sent   : Nat              -- counter of the last frame sent
  got    : Nat              -- counter of the last frame accepted
  step   : Nat              -- enrolment messages exchanged
  free   : Nat              -- forwarding capacity it advertised
  enrol  : Option Enrol
  deriving DecidableEq, Repr

/-- A forwarded job queued or running here (R320): its originator and number there, its identity here, the engine it
runs on, and the engines its runs failed on. -/
structure FwdIn where
  src : Fin 4
  job : Nat
  work : FwdWork
  id : Nat
  engine : Option Nat
  failedOn : List Nat
  deriving DecidableEq, Repr

/-- Peloton and cascade (R480 to R490). -/
structure Cas where
  role     : Role
  member   : Fin 4                  -- PEL_MEMBER and PEL_PEER as in force (R384)
  prints   : Vector Bytes 4
  trained  : Vector Bool 2          -- east, west
  peers    : Vector Peer 4
  leader   : Option (Fin 4)         -- the member whose claim was accepted since the die reset (R486)
  out      : Vector (List CasOut) 2 -- the 64-frame buffer of each hop, east and west
  held     : List CasOut            -- in tandem B's output buffer (R452)
  acks     : Vector Nat 2           -- acknowledgements sent on each hop (R482)
  drops    : Nat                    -- frames dropped and counted (R483)
  turn     : Option (Fin 4)         -- the member whose enrolment the lead started last (R484)
  fwdIn    : List FwdIn
  fwdRun   : List FwdIn
  parting  : List CasOut            -- frames with which the block left the ring at the last die reset (R489)
  deriving DecidableEq, Repr

/-! ## Dispatch -/

/-- Poll governor, time classes (R171, R229 to R231), and the identity the next dispatched job takes. -/
structure Disp where
  nextJob   : Nat
  polls     : Nat                -- polls admitted in the present 1 µs interval
  waiting   : List (Fin 512)     -- BULK polls deferred, oldest due first
  aligned   : Bool               -- TC_ALIGNED
  lastCycle : Option Nat         -- time of the last accepted cycle start, ns
  winBase   : Option Nat         -- cycle start that the windows follow, ns (R78)
  winCycle  : Nat                -- interval between it and the accepted cycle start before it; 0 where there was none
  seen      : Nat                -- TC_CYCLE_SEEN
  deriving DecidableEq, Repr

/-! ## The whole state -/

/-- Why a step stops. Raised only by the two fabric response commands; safe (DEDUCED, log entry 5). -/
inductive Fault where
  /-- FABRIC_READ_RESPONSE or FABRIC_WRITE_RESPONSE answers an access the block has not issued yet: the host chip
  is outside the spec. Safe: nothing is claimed of what follows. -/
  | neverIssued
  deriving DecidableEq, Repr

/-- Why a command has no meaning here. -/
inductive Refusal where
  /-- Raised by exec for a row whose meaning is not written. Safe. -/
  | notModelled (mnemonic : String)
  deriving DecidableEq, Repr

/-- The state of the block. -/
structure State where
  pending : List Instr      -- commands waiting, first in, first out
  now     : Nat             -- the model's time in ns (DESIGN CHOICE, log entry 3)
  free    : Nat             -- the model's own: index of the next free value (DESIGN CHOICE, log entry 4)
  pins    : Pins
  pwr     : Pwr
  sentry  : Sentry
  tamper  : Tamper
  vault   : Vault
  life    : Life
  keys    : Keys
  insts   : Vector Inst 128
  sqs     : Vector Sq 512
  cqs     : Vector Cq 256
  jobs    : List Job
  units   : Units
  fab     : Fab
  irq     : Irq
  rt      : Rt
  cnt     : Cnt
  dict    : Dict
  cfg     : Cfg
  jnl     : Jnl
  card    : Card
  flt     : Flt
  rng     : Rng
  edge    : Edge
  eoa     : Eoa
  cas     : Cas
  disp    : Disp
  deriving DecidableEq, Repr

/-! ## Reset -/

/-- Output reset values of R46; inputs at their inactive level (DESIGN CHOICE, log entry 6). (DESIGN CHOICE, log entry 38.) -/
def Pins.reset : Pins :=
  { kbZeroise := true, casBypass := true, pmStateReq := 0b10#2, pmDownAck := false, dbgPermit := false
    kb := none, tgtRsp := false, tgtErr := false, tgtRdata := 0#64, s0Pwr := false, s0RstN := false, s0Clk := false, s1Pwr := false, s1Vsel := false, s1Clk := false
    strap := false, pmDownReq := false, pmRailsOk := false, pmClksOk := false, wkAck := false, tmpLevel := 0#8, sensLevel := 0#4, s1CdHigh := true
    tbValid := false, tbTime := 0 }

/-- DESIGN CHOICE, log entry 1. -/
def Pwr.reset : Pwr :=
  { state := .run, boot := .held, dieReset := true, starting := none, bootStep := .first, resident := false, prep := none, retained := none
    wakeInReset := false, coastCause := false, powerLost := false, coastSince := none, calmSince := none, scan := false }

/-- At AON_POR_N release (R54, R382): RC oscillator, counts zero. (DESIGN CHOICE, log entry 38.) -/
def Sentry.reset : Sentry :=
  { onRc := true, sclkAbsent := false, valid := 0, invalid := 0, backoffs := 0, backoff := none, badTimes := []
    lastVerify := none, maskReserve := List.replicate 256 0#8, maskDraws := 0, degraded := false, late := [], rx := [], rxLast := false, rxAt := none }

/-- At AON_POR_N every input is tamper-class, active low (R74). -/
def Tamper.reset : Tamper :=
  { cfg := .replicate 8 ⟨.tamper, false⟩, latched := 0#8, sens := 0#4 }

/-- A zero vault (R51, R87). (DESIGN CHOICE, log entry 1.) -/
def Vault.zero : Vault :=
  { map := false, dus := none, roots := .replicate 9 none, seqs := .replicate 9 0, pendRoots := .replicate 9 none
    anchor := none, pendAnchor := none, counters := .replicate 64 0#64, bootEpoch := 0, journalAnchor := 0
    cardCounters := .replicate 16 0#64, sentry := .replicate 4 none, lcSeen := 0, mask := [], permKey := [], flips := [], outside := [] }

/-- BLANK: no fuse burned (DESIGN CHOICE, log entry 1). (DESIGN CHOICE, log entry 38.) -/
def Life.reset : Life :=
  { fuses := 1, fuse := .blank, challenge := List.replicate 16 0#8, auth := [], debug := false, debugSince := false
    hostMeasure := none, attest := [], fwMeasure := List.replicate 48 0#8, fwSvn := 0, restart := false, vaultLost := false }

def Keys.empty : Keys := { slots := [], gone := [], gens := [], nodes := [], serial := 1, clock := 0 }

/-- Defaults of R129 for an instance other than 0. -/
def Desc.default : Desc :=
  { credits := 0, weight := 16, sqCount := 1, cqCount := 1, slotBase := 0, slotQuota := 0, edgeQuota := 0
    colours := List.replicate 5 0#8, tclass := 0, tcReserve := List.replicate 4 0#8, consumers := 0 }

/-- Defaults of R129 for instance 0. -/
def Desc.default0 : Desc := { Desc.default with credits := 256, slotQuota := 256 }

def Df.reset : Df :=
  { state := .idle, alg := 0, compare := false, outLen := 0, err := 0, total := 0, key := none, msg := []
    buffered := 0, expect := .replicate 8 none, result := .replicate 8 0#64, engine := none, buffer := none
    failedOn := [] }

/-- An instance in FREE with the given staged values and hand. (DESIGN CHOICE, log entry 38.) -/
def Inst.blank (d : Desc) (hand : Nat) : Inst :=
  { staged := d, live := Desc.default, state := .free, quiesced := false, credits := 0, drawn := 0, outstanding := 0
    hand := hand, errCode := 0, errMore := false, errPage := 0, noticeCode := 0, noticeAddr := 0
    sqBase := none, cqBase := none, logBase := 0#64, logLow := 0#64, logPages := 0, logEnable := false
    logBank := false, logOverflow := false, logQ := [], logOp := none, fence := none
    invalSq := 0, invalAt := 0#32, invalDone := false
    pelAccept := 0xFF, pelResult := 0, pelPeer := none, resetStep := 0, destroying := false
    vtime := 0, wasEligible := false, rr := 0, df := Df.reset }

def Sq.reset : Sq :=
  { owner := none, state := .disabled, base := 0, size := 64, wbAddr := 0, cq := 0, cadence := 20000, consumed := 0#32
    stopCause := 0, slice := [], seen := [], full := none, bad := none, reading := none, again := false, hold := none, poisoned := []
    wbFlight := none, wbDue := false, walkEnd := 0#32, walking := false, shutLast := none }

def Cq.reset : Cq :=
  { owner := none, enabled := false, base := 0, size := 64, tail := 0#32, head := 0#32, headErr := false, vector := 0
    irqMode := 0, irqCount := 1, irqDelay := 0, irqNow := ⟨0, 1, 0⟩, overflow := [], stalled := false, reserved := 0, armed := false
    counted := 0, acks := [], timer := false, expired := false }

def Engine.reset : Engine :=
  { owner := none, strikes := 0, quar := false, contexts := [], serving := none, newest := [], loaded := none, pages := 0, inject := false }

def Units.reset : Units :=
  { cs := .replicate 16 ⟨none, 0⟩, eng := .replicate 36 Engine.reset, fenced := .replicate 4 false
    rebuild := false, short := 0, degraded := [], misses := [] }

/-- DESIGN CHOICE, log entry 38. -/
def Mailbox.reset (n : Nat) : Mailbox :=
  { busy := false, done := false, more := false, status := 0, rlen := 0, total := 0, doneBytes := 0
    buffer := List.replicate n 0#8 }

def Cnt.reset : Cnt :=
  { now := [], latched := [], bank0 := [], bank1 := [], bank := false, seq := 0, time := 0, timeOk := false, strobe := 0
    strobeOk := false, busy := false, pending := false, period := 0, fifo := 0 }

def Dict.reset : Dict :=
  { mgrBox := Mailbox.reset 2048, boxes := .replicate 128 (Mailbox.reset 128), transfers := [], commit := none
    appendBy := none, batch := none, waiting := [], readout := [], last := .ok }

/-- CAN_BIND default (R362): CHAN 0xFF, PAD 0xCC. -/
def canBindDefault : Bytes := 0xFF#8 :: (List.replicate 13 0#8 ++ [0xCC#8, 0#8])

/-- Defaults of the configuration objects (R229, R272, R319, R362, R377 to R386). -/
def Cfg.default : Cfg :=
  { tcCycleMin := 125000, windows := .replicate 64 ⟨0xFFFF, 0, false, none⟩
    edgeEnable := false, chanOwner := .replicate 96 none
    s1Enable := false, s1Modes := 0x1F#8, crcRetries := 3, recCounter := 0
    jnlDayLimit := 64000000, svnFloor := 0, updAtWake := true
    coastAfter := 1000, freewheelAfter := 0, wakeEnable := false, wakeCounter := 0, backoffTime := 60
    pelConfig := 0, pelMember := 0, pelPeers := .replicate 4 (List.replicate 16 0#8)
    fwdEnable := false, fwdAccept := false, fwdEngines := 2
    tandemRestarts := 8, restartWindow := 1000, mgrIrqMask := 0xFFFFFFFF#32
    eoaEnable := false, eoaEtherType := 0x88B5, eoaMac := List.replicate 6 0#8, sessionsMax := 4, idleLimit := 300
    blockCert := [], anchors := .replicate 8 none, canBinds := .replicate 4 canBindDefault }

/-- A slot 0 device that has never been used (DESIGN CHOICE, log entry 1). -/
def Jnl.reset : Jnl :=
  { s0State := .off, s0Slept := false, s0Init := none, s0Cycle := false, s0Waits := false, s0Hs200 := false, s0Cache := true, s0Cmds := [], s0Busy := none, s0Cid := List.replicate 16 0#8, s0Cap := 0, s0Stage := 0, s0Tries := 0
    state := .none, groups := [], headDue := none, inFlight := none, sent := false, pseq := 0, snapPseq := 0, sinceSnap := 0, snapAsked := false, dayBytes := 0
    winStart := 0, winOpen := false, winTb := false, winElapsed := 0, heldRecs := [], half0Due := false, half1Due := false, time := 0, heldEvents := [], events := [], evtSeq := 0
    rpmb := ⟨none, 0, false, List.replicate 256 0#8, none⟩, active := 0, trial := false
    images := .replicate 2 ⟨[], 0, 0, .empty⟩, runImage := 0, bootResult := 0
    updState := .idle, updLen := 0, updSeg := 0, updSvn := 0, updId := List.replicate 32 0#8, updMap := []
    staging := [], updOpen := none }

def RecInfo.none : RecInfo := ⟨0, 0, []⟩

/-- DESIGN CHOICE, log entry 38. -/
def Card.reset : Card :=
  { state := .empty, mode := 0xFF, cid := List.replicate 16 0#8, supported := 0#8, permitted := 0x1F#8, init := none, initTries := 0, initTuned := false, rca := 0, cmds := []
    recs := .replicate 16 RecInfo.none, append := none }

def Flt.reset : Flt :=
  { causes := 0#24, tandems := .replicate 2 ⟨true, [], false, []⟩, lastKeys := none, dataHalt := false, fifo := [] }

/-- DESIGN CHOICE, log entry 38. -/
def Rng.reset : Rng :=
  { seeded := false, key := List.replicate 32 0#8, v := List.replicate 16 0#8, pers := [], src := .replicate 2 true, requests := 0
    disagreed := 0, tcReserve := 0 }

def Edge.reset : Edge :=
  { table := [], queue := [], lanes := .replicate 8 none, verdicts := [], loads := 0 }

def Eoa.reset : Eoa :=
  { sessions := .replicate 8 none, nextNum := 1, hellos := [], helloDrops := 0, held := [], out := [], taken := 0
    tp := .replicate 4 ⟨0, none, 0, 0, none, 0, []⟩ }

def Peer.reset : Peer := ⟨0, none, 0, 0, 0, 0, none⟩

def Cas.reset : Cas :=
  { role := .solo, member := 0, prints := .replicate 4 (List.replicate 16 0#8), trained := .replicate 2 false, peers := .replicate 4 Peer.reset, leader := none
    out := .replicate 2 [], held := [], acks := .replicate 2 0, drops := 0, turn := none, fwdIn := [], fwdRun := [], parting := [] }

def Disp.reset : Disp :=
  { nextJob := 1, polls := 0, waiting := [], aligned := false, lastCycle := none, winBase := none, winCycle := 0, seen := 0 }

def Rt.reset : Rt := { entries := .replicate 1024 ⟨0#64, 0#64, 0#64⟩, fence := none }

def Fab.reset : Fab := { reads := [], writes := [], nextId := 1 }

/-- All 128 instances in FREE at hand 1, instance 0 with its own staged defaults (R129, R141; DESIGN CHOICE, log entry 1). -/
def instsReset : Vector Inst 128 :=
  (Vector.replicate 128 (Inst.blank Desc.default 1)).set 0 (Inst.blank Desc.default0 1)

/-- The machine at reset. (DESIGN CHOICE, log entry 1; DESIGN CHOICE, log entry 38.) -/
def State.reset : State :=
  { pending := [], now := 0, free := 0, pins := Pins.reset, pwr := Pwr.reset, sentry := Sentry.reset
    tamper := Tamper.reset, vault := Vault.zero, life := Life.reset, keys := Keys.empty, insts := instsReset
    sqs := .replicate 512 Sq.reset, cqs := .replicate 256 Cq.reset, jobs := [], units := Units.reset
    fab := Fab.reset, irq := ⟨none, []⟩, rt := Rt.reset, cnt := Cnt.reset, dict := Dict.reset, cfg := Cfg.default
    jnl := Jnl.reset, card := Card.reset, flt := Flt.reset, rng := Rng.reset, edge := Edge.reset, eoa := Eoa.reset
    cas := Cas.reset, disp := Disp.reset }

end Sys2Proof.Machine
end

