-- ==== Sys2Proof/Machine/Update.lean ====
section
/-! DEFINITION. Reads and updates of the parts of `State`: one updater per group, and per instance, SQ and CQ. -/

namespace Sys2Proof.Machine

variable (s : State)

def State.updPins (f : Pins → Pins) : State := { s with pins := f s.pins }
def State.updPwr (f : Pwr → Pwr) : State := { s with pwr := f s.pwr }
def State.updSentry (f : Sentry → Sentry) : State := { s with sentry := f s.sentry }
def State.updTamper (f : Tamper → Tamper) : State := { s with tamper := f s.tamper }
def State.updVault (f : Vault → Vault) : State := { s with vault := f s.vault }
def State.updLife (f : Life → Life) : State := { s with life := f s.life }
def State.updKeys (f : Keys → Keys) : State := { s with keys := f s.keys }
def State.updUnits (f : Units → Units) : State := { s with units := f s.units }
def State.updFab (f : Fab → Fab) : State := { s with fab := f s.fab }
def State.updIrq (f : Irq → Irq) : State := { s with irq := f s.irq }
def State.updRt (f : Rt → Rt) : State := { s with rt := f s.rt }
def State.updCnt (f : Cnt → Cnt) : State := { s with cnt := f s.cnt }
def State.updDict (f : Dict → Dict) : State := { s with dict := f s.dict }
def State.updCfg (f : Cfg → Cfg) : State := { s with cfg := f s.cfg }
def State.updJnl (f : Jnl → Jnl) : State := { s with jnl := f s.jnl }
def State.updCard (f : Card → Card) : State := { s with card := f s.card }
def State.updFlt (f : Flt → Flt) : State := { s with flt := f s.flt }
def State.updRng (f : Rng → Rng) : State := { s with rng := f s.rng }
def State.updEdge (f : Edge → Edge) : State := { s with edge := f s.edge }
def State.updEoa (f : Eoa → Eoa) : State := { s with eoa := f s.eoa }
def State.updCas (f : Cas → Cas) : State := { s with cas := f s.cas }
def State.updDisp (f : Disp → Disp) : State := { s with disp := f s.disp }
def State.setJobs (js : List Job) : State := { s with jobs := js }

/-- Instance n. -/
def State.inst (n : Fin 128) : Inst := s.insts[n]
/-- Global SQ g. -/
def State.sq (g : Fin 512) : Sq := s.sqs[g]
/-- Global CQ q. -/
def State.cq (q : Fin 256) : Cq := s.cqs[q]

def State.updInst (n : Fin 128) (f : Inst → Inst) : State := { s with insts := s.insts.set n (f s.insts[n]) }
def State.updSq (g : Fin 512) (f : Sq → Sq) : State := { s with sqs := s.sqs.set g (f s.sqs[g]) }
def State.updCq (q : Fin 256) (f : Cq → Cq) : State := { s with cqs := s.cqs.set q (f s.cqs[q]) }
def State.updEng (e : Fin 36) (f : Engine → Engine) : State :=
  s.updUnits fun u => { u with eng := u.eng.set e (f u.eng[e]) }

/-- Job i. (DESIGN CHOICE, log entry 2.) -/
def State.job (i : Nat) : Option Job := s.jobs.find? (·.id == i)
/-- Change job i. -/
def State.updJob (i : Nat) (f : Job → Job) : State :=
  { s with jobs := s.jobs.map fun j => if j.id == i then f j else j }

/-- The global SQ that is local SQ i of instance n, when it has one (R127). -/
def State.sqOf (n : Fin 128) (i : Nat) : Option (Fin 512) :=
  match (s.inst n).sqBase with
  | some b => if h : i < (s.inst n).live.sqCount ∧ b + i < 512 then some ⟨b + i, h.2⟩ else none
  | none => none

/-- The global CQ that is local CQ j of instance n, when it has one (R127). -/
def State.cqOf (n : Fin 128) (j : Nat) : Option (Fin 256) :=
  match (s.inst n).cqBase with
  | some b => if h : j < (s.inst n).live.cqCount ∧ b + j < 256 then some ⟨b + j, h.2⟩ else none
  | none => none

/-- All global SQ numbers, CQ numbers and instance numbers. -/
def allSq : List (Fin 512) := List.finRange 512
def allCq : List (Fin 256) := List.finRange 256
def allInst : List (Fin 128) := List.finRange 128

/-- SQs that instance n holds, in local order. -/
def State.sqsOf (n : Fin 128) : List (Fin 512) := (List.range 16).filterMap (s.sqOf n)
/-- CQs that instance n holds, in local order. -/
def State.cqsOf (n : Fin 128) : List (Fin 256) := (List.range 8).filterMap (s.cqOf n)

/-- Local number of a global SQ of instance n. -/
def State.localSq (n : Fin 128) (g : Fin 512) : Nat := g.val - ((s.inst n).sqBase.getD 0)

/-- The CQ an SQ is bound to (R158). -/
def State.cqOfSq (g : Fin 512) : Option (Fin 256) :=
  match (s.sq g).owner with
  | some n => s.cqOf n (s.sq g).cq
  | none => none

/-- Apply f to each element in turn. -/
def State.each {α : Type} (s : State) (l : List α) (f : State → α → State) : State := l.foldl f s

/-- The instance is of time class TC (R129). -/
def Inst.isTc (i : Inst) : Bool := i.live.tclass == 1

end Sys2Proof.Machine
end

