-- ==== Sys2Proof/Machine/Ops.lean ====
section
/-! DEFINITION. Operations shared by the commands: counters, events, fault-summary causes, free values, the region
check, fabric accesses, interrupts, notices, completions and the end of a job. -/

namespace Sys2Proof.Machine

/-! ## Counters, events, causes -/

/-- Key of counter `sub` at `index` in `Cnt` (R388). -/
def cntKey (index sub : Nat) : Nat := index * 256 + sub

/-- Value under a key, 0 where absent. -/
def assoc (l : List (Nat × Nat)) (k : Nat) : Nat := (l.lookup k).getD 0

/-- Replace the value under a key. -/
def assocSet {α : Type} (l : List (Nat × α)) (k : Nat) (v : α) : List (Nat × α) := (k, v) :: l.filter (·.1 != k)

/-- Add v to a counter, wrapping at 2^64 (R388). -/
def State.countBy (s : State) (index sub v : Nat) : State :=
  s.updCnt fun c => { c with now := assocSet c.now (cntKey index sub) ((assoc c.now (cntKey index sub) + v) % 2 ^ 64) }

/-- Add one to a counter. -/
def State.count (s : State) (index sub : Nat) : State := s.countBy index sub 1

/-- A counter of instance n (R391). -/
def State.countInst (s : State) (n : Fin 128) (sub : Nat) : State := s.count (0x2080 + n.val) sub

/-- Severity of an event code (R394). -/
def evtSeverity (code : Nat) : Nat :=
  if code ∈ [0x0001, 0x0002, 0x0013, 0x0024] then 3
  else if code ∈ [0x000B, 0x0012, 0x0020, 0x0021, 0x0023, 0x0025, 0x0026, 0x0031, 0x0041, 0x0052] then 2
  else if code ∈ [0x0005, 0x0007, 0x0033, 0x0040, 0x0042] then 0
  else 1

/-- The block is powered, out of die reset, and in a state in which its target port answers (R47, R492). (DESIGN CHOICE, log entry 18.) -/
def State.portAnswers (s : State) : Bool :=
  !s.pwr.dieReset && (s.pwr.state == .run || s.pwr.state == .coast)

/-- Step 6 of R435 has been reached and the core domains run. (DEDUCED, log entry 16.) -/
def State.alive (s : State) : Bool := s.portAnswers && s.pwr.boot == .ready

/-- The tandems run: step 6 of R435 is reached, or the block is in ROM mode (R26, R433). -/
def State.tandemsRun (s : State) : Bool := s.portAnswers && (s.pwr.boot == .ready || s.pwr.boot == .romMode)

/-- The tandem that does region u's work: its own, or the other where that is retired (R22, R24). -/
def Flt.server (f : Flt) (u : Fin 2) : Fin 2 := if f.tandems[u].inService then u else 1 - u

/-- An input reaches the tandem of region u through its exchange, at its lockstep cycle, 6 cycles of CCLK at 800 MHz after the sample,
and joins the input log (R451). (DEDUCED, log entry 45.) -/
def State.exchange (s : State) (u : Fin 2) (x : Sample) : State :=
  if s.tandemsRun then
    s.updFlt fun f =>
      let t := f.server u
      { f with tandems := f.tandems.set t { f.tandems[t] with log := f.tandems[t].log ++ [(4 * s.now / 5 + 6, x)] } }
  else s

/-- Log an event (R392, R393): it joins the log and waits there for a group to make it durable. -/
def State.logEvent (s : State) (code inst : Nat) (detail : Bytes) : State :=
  let seq := if s.jnl.evtSeq = 0xFFFFFFFF then 1 else s.jnl.evtSeq + 1
  let e : Event := { seq := seq, code := code, severity := evtSeverity code, inst := inst
                     time := if s.pins.tbValid then s.pins.tbTime else 0, timeOk := s.pins.tbValid
                     epoch := s.vault.bootEpoch % 2 ^ 32, detail := padTo 8 detail }
  (s.exchange 0 (.tbTime s.pins.tbTime)).updJnl fun j =>
    { j with evtSeq := seq, heldEvents := j.heldEvents ++ [e], events := (j.events ++ [e]).drop (j.events.length + 1 - 256) }

/-- Set a fault-summary cause bit 3 to 23 (R459). -/
def State.cause (s : State) (bit : Nat) : State :=
  s.updFlt fun f => { f with causes := f.causes ||| BitVec.ofNat 24 (2 ^ bit) }

/-! ## Free values (DESIGN CHOICE, log entry 4) -/

/-- n bytes whose value the spec leaves open (random draws and the like), and the state past them. (DESIGN CHOICE, log entry 4.) -/
def State.fresh (s : State) (n : Nat) : Bytes × State :=
  ((List.range n).map fun i => Config.freeByte (s.free + i), { s with free := s.free + n })

/-! ## Region table check -/

/-- The entry's range covers address a (R329): from its base up to 2^SIZE beyond. -/
def RtEntry.base (e : RtEntry) : Nat := (bits e.addr.toNat 51 12) * 4096
def RtEntry.size (e : RtEntry) : Nat := 2 ^ bits e.attr.toNat 29 24
def RtEntry.en (e : RtEntry) : Bool := bit e.attr.toNat 0
def RtEntry.colour (e : RtEntry) : Byte := BitVec.ofNat 8 (bits e.attr.toNat 23 16)
def RtEntry.covers (e : RtEntry) (a : Nat) : Bool := e.en && e.base ≤ a && a < e.base + e.size

/-- Colour set of an instance: its live colours (R331). -/
def Inst.colours (i : Inst) : List Byte := (i.live.colours.drop 1).take (byteAt i.live.colours 0)

/-- The entry grants byte a (R332): its sub-region enabled, its colour held, the permission set. -/
def RtEntry.grants (e : RtEntry) (cols : List Byte) (a : Nat) (wr : Bool) : Bool :=
  !bit e.attr.toNat (8 + (a - e.base) * 8 / e.size) && cols.contains e.colour
    && bit e.attr.toNat (if wr then 2 else 1)

/-- R332: the lowest-numbered enabled entry that covers the byte decides it; a byte that none covers is refused. -/
def State.byteGranted (s : State) (n : Fin 128) (a : Nat) (wr : Bool) : Bool :=
  match s.rt.entries.toList.find? (·.covers a) with
  | some e => e.grants (s.inst n).colours a wr
  | none => false

/-- One byte in each 512-byte block an access touches: within such a block every byte has one verdict, since a
sub-region is at least 512 bytes (R329). -/
def probes (addr len : Nat) : List Nat :=
  if len = 0 then []
  else (List.range ((addr + len - 1) / 512 - addr / 512 + 1)).map fun k => max addr ((addr / 512 + k) * 512)

/-- R333: an access is issued only when every byte of it is granted. -/
def State.granted (s : State) (n : Fin 128) (addr len : Nat) (wr : Bool) : Bool :=
  (probes addr len).all fun a => s.byteGranted n a wr

/-- Count a check, and a refusal (R390, 0x2013). -/
def State.countCheck (s : State) (ok : Bool) : State :=
  let s := s.count 0x2013 1
  if ok then s else s.count 0x2013 2

/-- The accesses of one buffer: split at 4 KiB boundaries (R333), as address and length. -/
def splitAux : Nat → Nat → Nat → List (Nat × Nat)
  | 0, _, _ => []
  | k + 1, addr, len =>
    if len = 0 then []
    else
      let n := min len (4096 - addr % 4096)
      (addr, n) :: splitAux k (addr + n) (len - n)

def split4k (addr len : Nat) : List (Nat × Nat) := splitAux (len / 4096 + 2) addr len

/-! ## Crossing FIFOs (R34, R387, R448) -/

/-- A poisoned word leaves crossing FIFO u: counted, with the cause FIFO_POISON (R34, R390, R459). -/
def State.fifoPoison (s : State) (u : Nat) : State := (s.count (0x2400 + u) 3).cause 23

/-- A word passes crossing FIFO u: whether it comes out poisoned. An injected two-bit error is met by the next word (R34, R387). (DEDUCED, log entry 21.) -/
def State.fifoWord (s : State) (u : Nat) : Bool × State :=
  if s.flt.fifo.contains u then (true, (s.updFlt fun f => { f with fifo := f.fifo.erase u }).fifoPoison u) else (false, s)

/-- The next word crosses one of the n FIFOs from number lo on: as for `fifoWord`. -/
def State.fifoAny (s : State) (lo n : Nat) : Bool × State :=
  match s.flt.fifo.find? fun u => decide (lo ≤ u) && decide (u < lo + n) with
  | some u => s.fifoWord u
  | none => (false, s)

/-! ## Fabric accesses -/

/-- Home region of an instance (R235). -/
def homePort (n : Fin 128) : Nat := n.val % 2

/-- Data port of a job: its sequencer's region (R38, R235). -/
def Job.port (j : Job) : Nat :=
  match j.seqr with
  | some c => c.val / 8
  | none => homePort j.inst

/-- Reads and posted writes of a port that are on their way (R59). -/
def Fab.readsOut (f : Fab) (port : Nat) : Nat := (f.reads.filter fun r => r.out && r.port == port).length
def Fab.writesOut (f : Fab) (port : Nat) : Nat := (f.writes.filter fun w => w.out && w.port == port).length

/-- The access that takes a place of its port next: the TC channel goes first, then the oldest (R38, R59). -/
def Fab.nextRead (f : Fab) (port : Nat) : Option Rd :=
  let l := f.reads.filter fun r => !r.out && r.port == port
  (l.find? (·.tc)).or l.head?
def Fab.nextWrite (f : Fab) (port : Nat) : Option Wr :=
  let l := f.writes.filter fun w => !w.out && w.port == port
  (l.find? (·.tc)).or l.head?

/-- The port issues one more access: one of its 256 places is free (R59), and the block is not in COAST (R47, R468). -/
def State.mayRead (s : State) (port : Nat) : Bool := s.pwr.state != .coast && decide (s.fab.readsOut port < 256)
def State.mayWrite (s : State) (port : Nat) : Bool := s.pwr.state != .coast && decide (s.fab.writesOut port < 256)

/-- A read goes out through its port's request FIFO, number 8 × port + channel: counted, and poisoned there or not (R34, R390, R391, R448). -/
def State.readOut (s : State) (r : Rd) : State :=
  let x := ((s.count (0x2020 + r.port) 1).countBy (0x2080 + r.inst.val) 9 r.len).fifoWord (8 * r.port + flag r.tc)
  if x.1 then x.2.updFab fun f => { f with reads := f.reads.map fun y => if y.id = r.id then { y with poison := true } else y } else x.2

/-- A write goes out through its port's FIFO of write requests and data, number 8 × port + 4 + channel: counted, a completion also by
whether its status is OK (R34, R178, R390, R391, R448). -/
def State.writeOut (s : State) (w : Wr) : State :=
  let x := s.fifoWord (8 * w.port + 4 + flag w.tc)
  let s :=
    if x.1 then x.2.updFab fun f => { f with writes := f.writes.map fun y => if y.id = w.id then { y with poison := true } else y } else x.2
  let s := (s.count (0x2020 + w.port) 2).countBy (0x2080 + w.inst.val) 10 w.data.length
  match w.what with
  | .completion _ =>
    let s := s.countInst w.inst 1
    if le w.data 2 2 = 0 then s else s.countInst w.inst 2
  | _ => s

/-- Issue a read, or have it wait for a place of its port (R59) or for the end of COAST (R468); answers its identity. (DESIGN CHOICE, log entry 19.) -/
def State.issueRead (s : State) (n : Fin 128) (port addr len : Nat) (what : ReadFor) : Nat × State :=
  let id := s.fab.nextId
  let r : Rd := ⟨id, n, (s.inst n).isTc, port, addr, len, what, s.mayRead port, false⟩
  let s := s.updFab fun f => { f with reads := f.reads ++ [r], nextId := id + 1 }
  (id, if r.out then s.readOut r else s)

/-- The block's own log writes are not logged (R150). -/
def WriteFor.isLog : WriteFor → Bool
  | .log _ => true
  | _ => false

/-- Issue a posted write, or have it wait for a place of its port (R59) or for the end of COAST (R468); answers its identity. It is
logged when LOG_ENABLE is 1 at its issue (R150, R152). (DESIGN CHOICE, log entry 19.) -/
def State.issueWrite (s : State) (n : Fin 128) (port addr : Nat) (data : Bytes) (what : WriteFor) : Nat × State :=
  let id := s.fab.nextId
  let out := s.mayWrite port
  let w : Wr := ⟨id, n, (s.inst n).isTc, port, addr, data, what, out && (s.inst n).logEnable && !what.isLog, out, false⟩
  let s := s.updFab fun f => { f with writes := f.writes ++ [w], nextId := id + 1 }
  (id, if out then s.writeOut w else s)

/-- Code of an SQ state (R159). -/
def SqSt.code : SqSt → Nat
  | .disabled => 0
  | .enabled => 1
  | .draining => 2
  | .deferred => 3
  | .stopped => 4

/-- The record of R166. -/
def State.wbRecord (s : State) (n : Fin 128) (g : Fin 512) : Bytes :=
  toLe 4 (s.sq g).consumed.toNat ++ toLe 2 (s.inst n).hand ++ toLe 1 (s.sq g).state.code ++ [0#8]

/-- A write as it is issued: logged when LOG_ENABLE is 1 now (R150, R152); a write-back carries the newest value (R167). -/
def State.atIssue (s : State) (w : Wr) : Wr :=
  { w with
    out := true, logged := (s.inst w.inst).logEnable && !w.what.isLog
    data := match w.what with
      | .writeBack g => s.wbRecord w.inst g
      | _ => w.data }

/-- A port's next waiting read is issued, where it may be. -/
def State.sendRead (s : State) (port : Nat) : State :=
  match s.fab.nextRead port with
  | some r =>
    if s.mayRead port then
      (s.updFab fun f => { f with reads := f.reads.map fun x => if x.id = r.id then { x with out := true } else x }).readOut r
    else s
  | none => s

/-- A port's next waiting write is issued, where it may be. -/
def State.sendWrite (s : State) (port : Nat) : State :=
  match s.fab.nextWrite port with
  | some w =>
    if s.mayWrite port then
      (s.updFab fun f => { f with writes := f.writes.map fun x => if x.id = w.id then s.atIssue x else x }).writeOut (s.atIssue w)
    else s
  | none => s

/-- An access has its response: its place goes to the next that waits (R59). -/
def State.readDone (s : State) (r : Rd) : State :=
  (s.updFab fun f => { f with reads := f.reads.filter (·.id != r.id) }).sendRead r.port
def State.writeDone (s : State) (w : Wr) : State :=
  (s.updFab fun f => { f with writes := f.writes.filter (·.id != w.id) }).sendWrite w.port

/-- What waited for the end of COAST is issued (R468). -/
def State.sendWaiting (s : State) : State :=
  s.each [0, 1] fun s p =>
    let s := s.each (s.fab.reads.filter fun r => !r.out && r.port == p) fun s _ => s.sendRead p
    s.each (s.fab.writes.filter fun w => !w.out && w.port == p) fun s _ => s.sendWrite p

/-- A write of instance n that waits to be issued, log writes apart. -/
def Wr.waits (n : Fin 128) (w : Wr) : Bool := w.inst == n && !w.out && !w.what.isLog

/-- A completion or a write-back: what the hand check of R142 discards is counted. -/
def WriteFor.isRing : WriteFor → Bool
  | .completion _ | .writeBack _ => true
  | _ => false

/-- Writes of instance n that wait to be issued never are (R142, R144, R145); of an older hand, its completions and write-backs are
counted (R142, R391). -/
def State.dropWaiting (s : State) (n : Fin 128) (byHand : Bool) : State :=
  let l := s.fab.writes.filter (Wr.waits n)
  let ids := l.map (·.id)
  let s := s.updFab fun f => { f with writes := f.writes.filter fun w => !w.waits n }
  let s := { s with cqs := s.cqs.map fun c => { c with acks := c.acks.filter fun i => !ids.contains i } }
  if byHand then s.each (l.filter (·.what.isRing)) fun s _ => s.countInst n 3 else s

/-- FIFOs whose words the model shows one by one: the requester ports, the target port, the manager mailbox, the chain sequencers, the
edge unit and the offload port, the card slots, the cascade, the direct-feed buffers and the wake port (R448). (DEDUCED, log entry 21.) -/
def fifoShown (u : Nat) : Bool := decide (u ≤ 18 ∨ 32 ≤ u ∧ u < 160 ∨ 192 ≤ u ∧ u ≤ 196 ∨ 224 ≤ u ∧ u ≤ 352)

/-- The first word of a read's data comes poisoned. -/
def poisonWord : List Beat → List Beat
  | [] => []
  | b :: rest =>
    if b.code = .ok then ⟨.poison, b.data.take 8⟩ :: (if b.data.length ≤ 8 then rest else ⟨.ok, b.data.drop 8⟩ :: rest)
    else b :: rest

/-- Read data passes its port's FIFO, number 8 × port + 2 + channel (R448); the data of a request that was poisoned comes poisoned.
(DEDUCED, log entry 21.) -/
def State.fifoRead (s : State) (r : Rd) (beats : List Beat) : List Beat × State :=
  let w := s.fifoWord (8 * r.port + 2 + flag r.tc)
  (if w.1 || r.poison then poisonWord beats else beats, w.2)

/-- A write's response passes its port's FIFO, number 8 × port + 6 + channel (R448): poisoned there, or to a write that went out
poisoned, it is an error response (R59). (DEDUCED, log entry 21.) -/
def State.fifoResp (s : State) (w : Wr) (r : Resp) : Resp × State :=
  let x := s.fifoWord (8 * w.port + 6 + flag w.tc)
  (if (x.1 || w.poison) && r == .ok then .poison else r, x.2)

/-! ## Interrupts and notices -/

/-- R62: an interrupt waits, or is merged with one of the same instance and vector. -/
def Irq.queue (q : Irq) (n : Fin 128) (vec : Nat) : Irq :=
  if q.shown = some (n, vec) ∨ (n, vec) ∈ q.waiting then q else { q with waiting := q.waiting ++ [(n, vec)] }

/-- The first interrupt that waits is presented, where none is. -/
def Irq.present (q : Irq) : Irq :=
  match q.shown, q.waiting with
  | none, p :: rest => ⟨some p, rest⟩
  | _, _ => q

/-- R62: present an interrupt, or have it wait. In COAST IRQ_VALID is low, and every interrupt waits for RUN (R47). -/
def State.raiseIrq (s : State) (n : Fin 128) (vec : Nat) : State :=
  s.updIrq fun q => if s.pwr.state = .coast then q.queue n vec else (q.queue n vec).present

/-! ## Card clocks -/

/-- S0_CLK and S1_CLK run while their device is in use; in COAST only while an operation of the slot is under way (R27, R47, R410). -/
def State.setClocks (s : State) : State :=
  let coast := s.pwr.state == .coast
  s.updPins fun p =>
    { p with s0Clk := (s.jnl.s0State == .ready && (!coast || s.jnl.inFlight.isSome)) || (s.jnl.s0Init.isSome && !s.jnl.s0Cycle)
             s1Clk := (s.card.state == .ready && (!coast || s.card.append.isSome)) || s.card.init.isSome }

/-- The interrupt settings as written. -/
def Cq.irqSet (c : Cq) : IrqSet := ⟨c.vector, c.irqCount, c.irqDelay⟩

/-- Raise an interrupt on a CQ's vector, as in force (R161). -/
def State.irqCq (s : State) (q : Fin 256) : State :=
  match (s.cq q).owner with
  | some n => s.raiseIrq n (s.cq q).irqNow.vector
  | none => s

/-- R139: a notice at an address: INST_ERR, NOTICE, a cause for the manager, an interrupt on local CQ 0's vector. -/
def State.notice (s : State) (n : Fin 128) (code addr : Nat) : State :=
  let s := s.updInst n fun i =>
    let i := { i with noticeCode := code, noticeAddr := addr }
    if i.errCode = 0 then { i with errCode := code, errPage := addr / 4096 } else { i with errMore := true }
  let s := s.cause 13
  match s.cqOf n 0 with
  | some q => s.irqCq q
  | none => s

/-- Mark every job of an instance superseded. -/
def State.dropJobs (s : State) (n : Fin 128) : State :=
  { s with jobs := s.jobs.map fun j => if j.inst = n then { j with dropped := true } else j }

/-- Discard an instance's direct-feed session: IDLE (R299). -/
def Df.idle (d : Df) : Df := { Df.reset with alg := d.alg, compare := d.compare, outLen := d.outLen }

/-- R145: a notice that moves the instance to FAILED, except while it is RESETTING (R144). Its
direct-feed session is discarded (R299). -/
def State.failInst (s : State) (n : Fin 128) (code addr : Nat) : State :=
  let s := s.notice n code addr
  match (s.inst n).state with
  | .configured | .active | .quiescing =>
    (((s.updInst n fun i => { i with state := .failed, resetStep := 0, df := i.df.idle }).dropJobs n).dropWaiting n false).logEvent
      0x0026 n.val [BitVec.ofNat 8 code]
  | _ => s

/-- A checked ring write (completion or write-back): refused ones give RING_WRITE_REFUSED (R334). None where refused. -/
def State.ringWrite (s : State) (n : Fin 128) (addr : Nat) (data : Bytes) (what : WriteFor) : Option Nat × State :=
  let ok := s.granted n addr data.length true
  let s := s.countCheck ok
  if ok then
    let r := s.issueWrite n (homePort n) addr data what
    (some r.1, r.2)
  else (none, s.failInst n 2 addr)

/-! ## Write-back and SQ state -/

/-- R167: report the consumed counter and state; at most one write-back of an SQ is in flight. None in FAILED (R145). -/
def State.writeBack (s : State) (g : Fin 512) : State :=
  match (s.sq g).owner with
  | none => s
  | some n =>
    if (s.sq g).wbAddr = 0 ∨ (s.inst n).state = .failed then s
    else if (s.sq g).wbFlight.isSome then s.updSq g fun q => { q with wbDue := true }
    else
      let r := s.ringWrite n (s.sq g).wbAddr (s.wbRecord n g) (.writeBack g)
      r.2.updSq g fun q => { q with wbFlight := r.1, wbDue := false }

/-- R164: advance the consumed counter over u units; what is known of the poison of units before it matters no more (R493). -/
def State.advance (s : State) (g : Fin 512) (u : Nat) : State :=
  (s.updSq g fun q =>
    let c := q.consumed + BitVec.ofNat 32 u
    { q with consumed := c, poisoned := q.poisoned.filter fun p => decide (0 ≤ sdiff p c) }).writeBack g

/-- Change an SQ's state, with the write-back each change brings (R167). -/
def State.setSq (s : State) (g : Fin 512) (st : SqSt) : State :=
  (s.updSq g fun q => { q with state := st }).writeBack g

/-- A read in flight is to be discarded when it returns (R176). -/
def Sq.letGo (q : Sq) : Sq := { q with reading := q.reading.map fun r => { r with discard := true } }

/-- R173: the SQ stops; no further fetch, any hold is lifted, and an interrupt goes out whether or not armed. -/
def State.stopSq (s : State) (g : Fin 512) (cause : Nat) : State :=
  let s := (s.updSq g fun q => { q.letGo with stopCause := cause, hold := none, seen := [] }).setSq g .stopped
  match s.cqOfSq g with
  | some q => s.irqCq q
  | none => s

/-! ## Completions -/

/-- Expected phase at counter c of a ring of the given size (R162). -/
def phaseAt (c : Half) (size : Nat) : Bool := c.toNat / size % 2 == 0

/-- Free entries of a CQ: size − (TAIL − HEAD). -/
def Cq.room (q : Cq) : Nat := q.size - (q.tail - q.head).toNat

/-- Places of R182: free CQ entries and free overflow entries. -/
def Cq.places (q : Cq) : Nat := q.room + (64 - q.overflow.length)

/-- A place is left for one more reservation (R182). -/
def Cq.hasPlace (q : Cq) : Bool := q.reserved < q.places

/-- The 16 bytes of R178 without the phase. -/
def cqBody (st : Status) (tag localSq hand result : Nat) : Bytes :=
  [0#8, BitVec.ofNat 8 (st.code / 256)] ++ toLe 2 st.code ++ toLe 4 tag ++ toLe 2 (localSq % 16)
    ++ toLe 2 (hand % 4096) ++ toLe 4 result

/-- Put the phase of the lap into byte 0 (R162). -/
def withPhase (b : Bytes) (ph : Bool) : Bytes := BitVec.ofNat 8 (flag ph) :: b.drop 1

/-- One more counted completion (R184), whose write is among those with these identities where it has no response yet: the
interrupt settings take effect with it (R161). (DEDUCED, log entry 41.) -/
def Cq.tally (c : Cq) (ids : List Nat) : Cq :=
  { c with counted := c.counted + 1, acks := c.acks ++ ids, irqNow := c.irqSet, timer := c.timer || c.irqDelay != 0 }

/-- A completion of a shutdown has entered the CQ with this write: it is the last so far, to be counted when the shutdown ends
unless it is counted already (R184). -/
def State.noteLast (s : State) (h : Held) (id : Nat) (counted : Bool) : State :=
  match h.shut with
  | some g => s.updSq g fun q => { q with shutLast := if counted then none else some id }
  | none => s

/-- A completion enters the CQ at TAIL (R178, R179) and is counted for interrupts where it is to be (R184). (DESIGN CHOICE, log entry 51.) -/
def State.pushCq (s : State) (q : Fin 256) (h : Held) : State :=
  let c := s.cq q
  let counts := h.counted || c.irqMode == 1
  let r := s.ringWrite h.inst (c.base + (c.tail.toNat % c.size) * 16) (withPhase h.bytes (phaseAt c.tail c.size))
    (.completion q)
  match r.1 with
  | none => r.2
  | some id =>
    (r.2.updCq q fun c =>
      let c := { c with tail := c.tail + 1#32 }
      if counts then c.tally [id] else c).noteLast h id counts

/-- R182: a completion whose place is reserved goes into the CQ, or into the overflow area behind those there. -/
def State.postCq (s : State) (q : Fin 256) (h : Held) : State :=
  let c := s.cq q
  if c.room ≠ 0 ∧ c.overflow = [] then s.pushCq q h
  else s.updCq q fun c => { c with overflow := c.overflow ++ [h] }

/-- Give back one reservation (R182). -/
def State.unreserve (s : State) (q : Fin 256) : State := s.updCq q fun c => { c with reserved := c.reserved - 1 }

/-- A shutdown of the SQ is under way. -/
def SqSt.shutting (x : SqSt) : Bool := x == .draining || x == .deferred

/-- Write one completion for an SQ entry with the instance's current hand, releasing its reservation. `shut`: a shutdown of
the SQ writes it (R184). -/
def State.complete (s : State) (n : Fin 128) (g : Fin 512) (q : Fin 256) (tag : Nat) (irq : Bool) (st : Status)
    (result : Nat) (shut : Bool) : State :=
  let h : Held := ⟨cqBody st tag (s.localSq n g) (s.inst n).hand result, irq, n, if shut then some g else none⟩
  (s.postCq q h).unreserve q

/-- R182: STALLED is set when something is held back for want of a place, with an interrupt; a set one stays. -/
def State.stall (s : State) (q : Fin 256) : State :=
  if (s.cq q).stalled then s else (s.updCq q fun c => { c with stalled := true }).irqCq q

/-! ## End of a job -/

/-- TAG of a job's entry (R192). -/
def Job.tag (j : Job) : Nat := le j.raw 4 4
/-- KEY of a job's entry. -/
def Job.handle (j : Job) : Nat := le j.raw 8 4
/-- OPCODE of a job's entry. -/
def Job.opcode (j : Job) : Nat := le j.raw 2 2
/-- OPF of a job's entry (R193). -/
def Job.opf (j : Job) : Nat := le j.raw 12 4
def Job.alg (j : Job) : Nat := byteAt j.raw 12
def Job.keyPath (j : Job) : Bool := bit j.opf 8
def Job.releaseEarly (j : Job) : Bool := bit j.opf 9
def Job.scrub (j : Job) : Bool := bit j.opf 10
def Job.keyPrev (j : Job) : Bool := bit j.opf 11
def Job.opspec (j : Job) : Nat := bits j.opf 31 16

/-- R142, R145: the job's hand is superseded, or its instance has FAILED. -/
def State.superseded (s : State) (j : Job) : Bool :=
  j.dropped || j.hand != (s.inst j.inst).hand || (s.inst j.inst).state == .failed

/-- Data writes of job i that have no response yet. -/
def State.dataOut (s : State) (i : Nat) : Bool :=
  s.fab.writes.any fun w => match w.what with
    | .data j _ => j == i
    | _ => false

/-- R147: when OUTSTANDING reaches the lowered count, the surplus credits return to the pool. -/
def Inst.settle (i : Inst) : Inst := if i.outstanding ≤ i.credits then { i with drawn := i.credits } else i

/-- A job gives up its context; the turn passes to the contexts after it (R237). -/
def Engine.leave (g : Engine) (id : Nat) : Engine :=
  { g with contexts := if g.serving = some id then (g.contexts.dropWhile (· != id)).drop 1 ++ g.contexts.takeWhile (· != id)
                       else g.contexts.filter (· != id)
           serving := g.serving.filter (· != id), newest := g.newest.filter (· != id), loaded := g.loaded.filter (· != id) }

/-- Free what a job holds: its context and hold pages (R236, R249). -/
def State.freeUnits (s : State) (j : Job) : State :=
  match j.engine with
  | some e =>
    if h : e < 36 then
      s.updEng ⟨e, h⟩ fun g => { (g.leave j.id) with pages := g.pages - j.pages }
    else s
  | none => s

/-- The next frame for member m, under the key of the pair (R483). -/
def State.casOut (s : State) (m : Fin 4) (b : CasBody) : CasOut :=
  let p := s.cas.peers[m]
  ⟨s.cas.member, m, p.sent + 1, b, p.key.getD [], 0⟩

/-- A frame for another member joins tandem B's output buffer (R452); none is formed for a member that no key is shared with (R483). -/
def State.cascadeSend (s : State) (m : Fin 4) (b : CasBody) : State :=
  if s.cas.peers[m].key.isSome then
    s.updCas fun c =>
      { c with peers := c.peers.set m { c.peers[m] with sent := c.peers[m].sent + 1 }, held := c.held ++ [s.casOut m b] }
  else s

/-- The answer that makes the originator run the job itself (R322). -/
def noRun : PkOut := ⟨.engineFault, 0, []⟩

/-- R489: before it leaves, a follower answers each queued forwarded job with ENGINE_FAULT. -/
def State.answerQueued (s : State) : State :=
  let l := s.cas.fwdIn
  (s.updCas fun c => { c with fwdIn := [] }).each l fun s f => s.cascadeSend f.src (.fwdResult f.job noRun)

/-- The answers with which a member leaves the ring that is reset or loses power (R489). (DESIGN CHOICE, log entry 52.) -/
def State.parting (s : State) : List CasOut := s.answerQueued.cas.held.drop s.cas.held.length

/-- A forwarded job that ends here by abandonment sends a cancel (R322). -/
def State.cancelFwd (s : State) (j : Job) : State :=
  match j.phase, j.member4 with
  | .forwarded, some m => s.cascadeSend m (.fwdCancel j.id)
  | _, _ => s

/-- What else ends with a job: its transfer on the key bus is withdrawn, and a KEY_EVICT that did not empty its slot
leaves the slot unmarked (R67, R114). (DEDUCED, log entry 14.) -/
def State.dropMarks (s : State) (j : Job) : State :=
  (s.updPins fun p => { p with kb := p.kb.filter fun t => t.job != j.id }).updKeys fun k =>
    { k with slots := k.slots.map fun p => if p.2.evicting = some j.id then (p.1, { p.2 with evicting := none }) else p
             gone := k.gone.filter fun p => s.jobs.any fun i => i.id != j.id && i.goneKey == some p.1 }

/-- A verdict of "not equal" counts as a failure of its chain (R216). -/
def failing (st : Status) (verdict : Bool) (result : Nat) : Bool := st != .ok || (verdict && result == 2)

/-- Opcodes whose RESULT is a verdict (R198). -/
def isVerdictOp (op : Nat) : Bool := op ∈ [0x0121, 0x0201, 0x0203, 0x0401, 0x0406]

/-- Take one job out: its units, its credit, and its completion unless its hand is superseded (R45, R142). -/
def State.retire (s : State) (j : Job) (st : Status) (result : Nat) : State :=
  let gone := s.superseded j
  let byHand := j.hand != (s.inst j.inst).hand
  let s := (((s.freeUnits j).dropMarks j).cancelFwd j).setJobs (s.jobs.filter (·.id != j.id))
  let s := s.updInst j.inst fun i => Inst.settle { i with outstanding := i.outstanding - 1 }
  if gone then
    let s := s.unreserve j.cq
    if byHand then s.countInst j.inst 3 else s
  else
    s.complete j.inst j.sq j.cq j.tag j.irq st result (st == .aborted && (s.sq j.sq).state.shutting)

/-- The later members of j's chain, in member order. -/
def State.laterMembers (s : State) (j : Job) : List Job := s.jobs.filter fun k => k.chain == j.chain && k.member > j.member

/-- End a job now. A failing member abandons every later member of its chain, in order (R216). -/
def State.endJob (s : State) (j : Job) (st : Status) (result : Nat) : State :=
  let later := s.laterMembers j
  let s := s.retire j st result
  if failing st (isVerdictOp j.opcode && !(j.opcode == 0x0406 && j.opspec % 256 != 1)) result then
    s.each later fun s k => s.retire k .chainAbandoned j.member
  else s

/-- A data write of job j went out through another port than its ring's and has no response yet (R235). -/
def State.awayOut (s : State) (j : Job) : Bool :=
  s.fab.writes.any fun w => w.port != homePort j.inst && match w.what with
    | .data i _ => i == j.id
    | _ => false

/-- End a job, waiting for the responses of its data writes where the data port is not the ring port (R235). Reads on their
way for it join nothing any more (R339). -/
def State.finish (s : State) (j : Job) (st : Status) (result : Nat) : State :=
  if s.awayOut j ∧ s.superseded j = false then
    s.updJob j.id fun k => { k with phase := .draining, ending := some (st, result), pieces := [] }
  else s.endJob j st result

/-- A location RESULT (R219). (DEDUCED, log entry 11.) -/
def location (code off : Nat) : Nat := code * 2 ^ 28 + off % 2 ^ 28

end Sys2Proof.Machine
end

