-- ==== Sys2Proof/Machine/Port.lean ====
section
/-! DEFINITION. The register target port (R60, R61, R492, R433): how an access is admitted, answered and counted. -/

namespace Sys2Proof

/-- The access covers bits 31:0. -/
def Tgt.hasLow (a : Tgt) : Bool := a.width == .full || a.width == .low

/-- The access covers bits 63:32. -/
def Tgt.hasHigh (a : Tgt) : Bool := a.width == .full || a.width == .high

end Sys2Proof

namespace Sys2Proof.Machine

/-- The block fetches and starts jobs: RUN, no FREEWHEEL preparation (R468, R469). -/
def State.fetches (s : State) : Bool := s.alive && s.pwr.state == .run && s.pwr.prep.isNone && !s.flt.dataHalt

/-- R61: admission to an instance page (some n), or to the pages of the manager (none). (DESIGN CHOICE, log entry 18.) -/
def admitted (a : Tgt) (page : Option (Fin 128)) : Bool :=
  a.mgr || match page with
    | some n => a.inst == n
    | none => false

/-- An error response, whose data is zero (R60). -/
def State.portError (s : State) : State := s.updPins fun p => { p with tgtRsp := true, tgtErr := true, tgtRdata := 0#64 }

/-- An answer without error. -/
def State.portOk (s : State) : State := s.updPins fun p => { p with tgtRsp := true, tgtErr := false }

/-- A read answered with its data. -/
def State.portData (s : State) (v : Word) : State := s.updPins fun p => { p with tgtRsp := true, tgtErr := false, tgtRdata := v }

/-- The port answers, and no word of an access is poisoned in its crossing FIFOs (R447, R448). -/
def State.portClean (s : State) : Bool := s.portAnswers && s.flt.fifo.all fun u => u != 16 && u != 17

/-- An access of a size that the port takes, with no poisoned word (R60, R447). -/
def State.portTakes (s : State) (a : Tgt) : Bool := s.portClean && a.width != .other

/-- An access of another size, or one with a poisoned word: an error response where the port answers, and no effect (R60, R447). (DEDUCED, log entry 21.) -/
def State.portTurned (s : State) : State := if s.portAnswers then ((s.fifoAny 16 2).2.count 0x201E 1).portError else s

/-- R61: a refused access, counted for the port and against the instance named in TGT_INST. -/
def State.portRefuse (s : State) (a : Tgt) : State := ((s.count 0x201E 2).countInst a.inst 4).portError

/-- The state in which an admitted write takes its effect: counted and answered without error. -/
def State.answeredAt (s : State) : State := (s.count 0x201E 1).portOk

/-- The same for a write to an instance page, the manager mailbox or the manager control page, which ends COAST (R468). -/
def State.admittedAt (s : State) : State :=
  s.answeredAt.updPwr fun p => { p with coastCause := p.coastCause || p.state == .coast }

/-- A write at the target port, with effect f once it is served and admitted (R60, R61). One that is not served, as
before step 6 of R435, receives an error response (R492). Every access is answered or turned away in the step that takes it, so none is
held open across a change of the power state (R48). -/
def State.access (s : State) (a : Tgt) (page : Option (Fin 128)) (served wakes : Bool) (f : State → State) : State :=
  if s.portTakes a then
    if served then
      if admitted a page then f (if wakes then s.admittedAt else s.answeredAt) else (s.count 0x201E 1).portRefuse a
    else (s.count 0x201E 1).portError
  else s.portTurned

/-- A write to a register of the page: in ROM mode and with both tandems failed every such write receives an error
response (R433, R26). -/
def State.regWrite (s : State) (a : Tgt) (page : Option (Fin 128)) (f : State → State) : State :=
  s.access a page (s.pwr.boot == .ready) true f

/-- A write that a register takes only as a whole, 64 bits (R174, R290): another is refused without effect, and does not end COAST (R468). -/
def State.wholeWrite (s : State) (a : Tgt) (page : Option (Fin 128)) (f : State → State) : State :=
  s.access a page (s.pwr.boot == .ready) (a.width == .full) fun s => if a.width = .full then f s else s.portError

/-- A write to the region table, or one that requests a snapshot: it leaves COAST as it is (R462, R468). (DEDUCED, log entry 28.) -/
def State.rtWrite (s : State) (a : Tgt) (f : State → State) : State := s.access a none (s.pwr.boot == .ready) false f

/-- A write of FAULT_CLEAR, which ROM mode takes as well: the errors of R492 end there, and ROM_MODE is a condition that a clear meets
(R460). (DEDUCED, log entry 18.) -/
def State.clearWrite (s : State) (a : Tgt) (f : State → State) : State :=
  s.access a none (s.pwr.boot == .ready || s.pwr.boot == .romMode) true f

/-- The value a 64-bit register takes from a write of width w over its old value (R60): only the bytes written change. -/
def merge (w : Width) (old new : Word) : Word :=
  match w with
  | .full => new
  | .low => (old &&& 0xFFFFFFFF00000000#64) ||| (new &&& 0xFFFFFFFF#64)
  | .high => (old &&& 0xFFFFFFFF#64) ||| (new &&& 0xFFFFFFFF00000000#64)
  | .other => old

end Sys2Proof.Machine
end

