-- ==== Sys2Proof/Machine/Rings.lean ====
section
/-! DEFINITION. Submission rings: polls, ring reads, the entry cache, stops, holds and shutdowns (R157 to R177,
R185 to R191), and completion rings' head, arm and interrupt rules (R181 to R184). -/

namespace Sys2Proof.Machine

/-! ## Fetching -/

/-- Units held in the slice. -/
def Sq.cached (q : Sq) : Nat := (q.slice.map fun e => e.bytes.length / 32).sum

/-- The counter of the first unit that is not cached. -/
def Sq.next (q : Sq) : Half := q.consumed + BitVec.ofNat 32 q.cached

/-- The walk of a shutdown has come to c0 + size: no entry that starts there or later is aborted (R187). -/
def Sq.walked (q : Sq) (c : Half) : Bool := q.walking && decide (sdiff q.walkEnd c ≤ 0)

/-- Units a read from `next` may cover: the slice's free space (R172), the ring's end (R169), consumed + size (R164),
and FIRST of a hold (R175); nothing once a shutdown's walk has come to its end (R187). -/
def Sq.window (q : Sq) : Nat :=
  let room := min (16 - q.cached) (min (q.size - q.next.toNat % q.size) (q.size - q.cached))
  let room := match q.hold with
    | some f => min room (sdiff f q.next).toNat
    | none => room
  if q.walked q.next then 0 else room

/-- The ring may be polled or read on: ENABLED with an ACTIVE instance and no hold (R169), or a walk in a shutdown. -/
def State.mayFetch (s : State) (g : Fin 512) : Bool :=
  match (s.sq g).owner with
  | none => false
  | some n =>
    (s.sq g).reading.isNone && s.alive &&
      (((s.sq g).state == .enabled && s.fetches && (s.inst n).state == .active) ||
       (((s.sq g).state == .draining || (s.sq g).state == .deferred) && (s.sq g).walking
          && (s.sq g).slice.isEmpty && ((s.inst n).state == .active || (s.inst n).state == .configured
            || (s.inst n).state == .quiescing)))

/-- The walk of a shutdown ends; a cause other than 0 is kept in STOP_CAUSE (R187). -/
def State.endWalk (s : State) (g : Fin 512) (cause : Nat) : State :=
  s.updSq g fun q => { q with walking := false, seen := [], poisoned := []
                              stopCause := if cause = 0 then q.stopCause else cause }

/-- A ring read cannot go on for this cause: the ring stops (R173), or the walk ends (R187). -/
def State.readFails (s : State) (g : Fin 512) (cause : Nat) : State :=
  if (s.sq g).walking then s.endWalk g cause else s.stopSq g cause

/-- Check and issue the accesses of a ring read one after the other (R169, R333): whether none was refused, and the
identities of those issued before a refused one. -/
def ringAccs (g : Fin 512) (n : Fin 128) : List (Nat × Nat) → List Nat → State → Bool × List Nat × State
  | [], ids, s => (true, ids, s)
  | a :: rest, ids, s =>
    let ok := s.granted n a.1 a.2 false
    let s := s.countCheck ok
    if ok then
      let r := s.issueRead n (homePort n) a.1 a.2 (.ring g)
      ringAccs g n rest (ids ++ [r.1]) r.2
    else (false, ids, s)

/-- Read len bytes of a ring at addr (R169), through the home region's port on the channel of the ring's class (R38, R235).
A refused access refuses the read; what was issued of it is discarded when its data returns, and has then finished (R337). -/
def State.ringRead (s : State) (g : Fin 512) (n : Fin 128) (addr len units skip : Nat) : State :=
  let l := split4k addr len
  let r := ringAccs g n l [] s
  let units := if r.1 then units else (((l.take r.2.1.length).map (·.2)).sum - skip) / 32
  let s := r.2.2.updSq g fun q =>
    { q with reading := if r.2.1 = [] then none else some ⟨r.2.1, q.next, units, skip, !r.1⟩ }
  if r.1 then s else s.readFails g 2

/-- A poll reads the aligned 64-byte line that holds the next unit (R169). -/
def State.poll (s : State) (g : Fin 512) : State :=
  match (s.sq g).owner with
  | none => s
  | some n =>
    let q := s.sq g
    let pos := q.next.toNat % q.size
    (s.count 0x2012 1).ringRead g n (q.base + (pos - pos % 2) * 32) 64 (2 - pos % 2) (32 * (pos % 2))

/-- Read on at once (R169, R172), where there is room. -/
def State.readOn (s : State) (g : Fin 512) : State :=
  match (s.sq g).owner with
  | none => s
  | some n =>
    let q := s.sq g
    if s.mayFetch g && q.window != 0 then
      s.ringRead g n (q.base + q.next.toNat % q.size * 32) (q.window * 32) q.window 0
    else s

/-! ## Entries -/

def entryLen (u0 : Bytes) : Nat := byteAt u0 1
def entryPhase (u0 : Bytes) : Bool := bit (byteAt u0 0) 0
def entryChain (u0 : Bytes) : Bool := bit (byteAt u0 0) 1
def entryFence (u0 : Bytes) : Bool := bit (byteAt u0 0) 2
def entryIrq (u0 : Bytes) : Bool := bit (byteAt u0 0) 3
/-- A PAD entry (R212). -/
def isPad (u0 : Bytes) : Bool := le u0 2 2 == 0

/-- What a scan of returned units ends with. -/
inductive ScanEnd where
  | idle | more | stop (cause : Nat)
  deriving DecidableEq, Repr

/-- Counters of the poisoned units of an entry at unit idx of a read, the entry's own counter being c (R493). -/
def badUnits (bad : List Nat) (idx len : Nat) (c : Half) : List Half :=
  ((List.range len).filter fun k => bad.contains (idx + k)).map fun k => c + BitVec.ofNat 32 k

/-- R170: walk the returned units from unit idx of counter c. `bad` lists poisoned units. An entry joins the slice
only where the read before had shown it valid with the same length; otherwise it is noted as seen. A unit poisoned once is read
again; poisoned a second time it stops the ring where it is a unit 0, and fails its entry alone otherwise (R173, R493).
The first argument bounds the recursion. -/
def scan (bad : List Nat) : Nat → Nat → Bytes → Sq → Sq × ScanEnd
  | 0, _, _, q => (q, .more)
  | fuel + 1, idx, data, q =>
    if data.length < 32 * (idx + 1) then (q, .more)
    else
      let first := q.next
      -- counter of unit idx, counted from the unit the read started at
      let c := match q.reading with
        | some r => r.at_ + BitVec.ofNat 32 idx
        | none => first
      let u0 := slice data (32 * idx) 32
      if q.walked c then (q, if (q.seen.filter fun p => sdiff p.1 c < 0).isEmpty then .idle else .more)
      else if bad.contains idx then
        if q.poisoned.contains c then (q, .stop 4) else ({ q with poisoned := c :: q.poisoned }, .more)
      else if entryPhase u0 != phaseAt c q.size then
        let seen := q.seen.filter fun p => sdiff p.1 c < 0
        ({ q with seen := seen }, if seen.isEmpty then .idle else .more)
      else
        let len := entryLen u0
        let badLen := len = 0 ∨ 16 < len ∨ q.size < c.toNat % q.size + len
        if q.seen.contains (c, len) = false then
          let q := { q with seen := (c, len) :: q.seen.filter (·.1 != c) }
          if badLen then (q, .more) else scan bad fuel (idx + len) data q
        else if badLen then
          ({ q with seen := q.seen.filter (·.1 != c), bad := some (c, u0) }, .stop 1)
        else if 16 < q.cached + len then ({ q with full := some len }, .idle)
        else if data.length < 32 * (idx + len) ∨ c ≠ first then (q, .more)
        else
          let hit := badUnits bad idx len c
          match hit.find? q.poisoned.contains with
          | some u =>
            scan bad fuel (idx + len) data
              { q with slice := q.slice ++ [⟨c, slice data (32 * idx) (32 * len), some (32 * (u - c).toNat)⟩]
                       seen := q.seen.filter (·.1 != c), full := none }
          | none =>
            if hit = [] then
              scan bad fuel (idx + len) data
                { q with slice := q.slice ++ [⟨c, slice data (32 * idx) (32 * len), none⟩], seen := q.seen.filter (·.1 != c), full := none }
            else ({ q with poisoned := hit ++ q.poisoned }, .more)

/-- The code of R493 for a whole read: DECODE and TARGET_ERR are the most severe, then POISON, then OK. -/
def worst (bs : List Beat) : Resp :=
  if bs.any (·.code == .decode) then .decode
  else if bs.any (·.code == .targetErr) then .targetErr
  else if bs.any (·.code == .poison) then .poison else .ok

/-- Data of a read, beat after beat. -/
def beatData (bs : List Beat) : Bytes := (bs.map (·.data)).flatten

/-- A byte of the read lies in a poisoned beat, for each byte in order (R493). -/
def beatPoison (bs : List Beat) : List Bool := (bs.map fun b => List.replicate b.data.length (b.code == .poison)).flatten

/-- Units with a poisoned word, from byte `skip` on (R493). -/
def poisonUnits (bs : List Beat) (skip units : Nat) : List Nat :=
  (List.range units).filter fun u => ((beatPoison bs).drop (skip + 32 * u)).take 32 |>.any id

/-! ## Completions written without dispatch -/

/-- Write an abort, stop or format completion for an entry of the ring, taking a reservation for it (R173, R182). -/
def State.completeEntry (s : State) (g : Fin 512) (u0 : Bytes) (st : Status) (result : Nat) : State :=
  match (s.sq g).owner, s.cqOfSq g with
  | some n, some q =>
    (s.updCq q fun c => { c with reserved := c.reserved + 1 }).complete n g q (le u0 4 4) (entryIrq u0) st result
      (s.sq g).state.shutting
  | _, _ => s

/-- The instance of g has FAILED: no completion is issued for it (R130, R145). -/
def State.sqFailed (s : State) (g : Fin 512) : Bool := (s.sq g).owner.any fun n => (s.inst n).state == .failed

/-- R173 cause 1: once the entries before it are consumed and its CQ has a place (R182), the bad header completes
MALFORMED_ENTRY with the unit's position, and the counter advances by one unit. (DEDUCED, log entry 22.) -/
def State.badHeader (s : State) (g : Fin 512) : State :=
  match (s.sq g).bad, s.cqOfSq g with
  | some (c, u0), some q =>
    if c = (s.sq g).consumed ∧ (s.sq g).slice = [] ∧ s.sqFailed g = false then
      if (s.cq q).hasPlace then
        let s := s.updSq g fun q => { q with bad := none }
        (s.completeEntry g u0 .malformedEntry (location 0 (c.toNat % (s.sq g).size))).advance g 1
      else s.stall q
    else s
  | _, _ => s

/-- Take the head entry of the slice away, the counter advancing past it (R164). -/
def State.dropHead (s : State) (g : Fin 512) : State :=
  match (s.sq g).slice with
  | [] => s
  | e :: rest => (s.updSq g fun q => { q with slice := rest, full := none }).advance g (e.bytes.length / 32)

/-- R187 step 2: abort the undispatched entries of the slice in order, while the CQ has places (R182); a PAD writes
nothing (R212). The first argument bounds the recursion. -/
def abortSlice : Nat → State → Fin 512 → State
  | 0, s, _ => s
  | k + 1, s, g =>
    match (s.sq g).slice with
    | [] => s
    | e :: _ =>
      if isPad e.bytes then abortSlice k (s.dropHead g) g
      else
        match s.cqOfSq g with
        | some q =>
          if (s.cq q).hasPlace then abortSlice k ((s.completeEntry g e.bytes .aborted 0).dropHead g) g
          else s.stall q
        | none => abortSlice k (s.dropHead g) g

/-- Steps 2 and 3 of R187 as far as they go now: abort what is cached, then walk on. (DESIGN CHOICE, log entry 42.) -/
def State.drainSq (s : State) (g : Fin 512) : State :=
  if s.sqFailed g then s
  else
    let s := (abortSlice 17 s g).badHeader g
    if (s.sq g).slice = [] ∧ (s.sq g).walking then
      if (s.sq g).window = 0 ∧ (s.sq g).hold = none then s.endWalk g 0 else s.readOn g
    else s

/-- Go on with a shutdown in progress. (DEDUCED, log entry 22.) -/
def State.drainIfShut (s : State) (g : Fin 512) : State := if (s.sq g).state.shutting then s.drainSq g else s

/-! ## The commands -/

/-- A return answers a read of n bytes: all its data, or an error code (R493). -/
def answers (beats : List Beat) (n : Nat) : Bool :=
  n ≤ (beatData beats).length || worst beats == .decode || worst beats == .targetErr

/-- The ring may be polled (R169): it is ENABLED, its instance ACTIVE, no hold is in force, and there is room to read. -/
def State.mayPoll (s : State) (g : Fin 512) : Bool :=
  s.mayFetch g && (s.sq g).state == .enabled && (s.sq g).hold.isNone && (s.sq g).window != 0

/-- A poll the governor admits. -/
def State.admitPoll (s : State) (g : Fin 512) : State := (s.updDisp fun d => { d with polls := d.polls + 1 }).poll g

/-- A poll of g falls due (R169, R171): TC polls are admitted at once; a BULK poll beyond the interval's budget waits.
(DEDUCED, log entry 41.) -/
def State.pollDue (s : State) (g : Fin 512) : State :=
  match (s.sq g).owner with
  | none => s
  | some n =>
    if s.mayPoll g && !s.disp.waiting.contains g then
      if (s.inst n).isTc || s.disp.polls < 25 then s.admitPoll g
      else (s.updDisp fun d => { d with waiting := d.waiting ++ [g] }).count 0x2012 2
    else s

/-- Length of the cycles that the windows run in on the ECLK count: the interval last seen between cycle starts, TC_CYCLE_MIN where none
has been (R78). (DEDUCED, log entry 28.) -/
def State.winLength (s : State) : Nat := if s.disp.winCycle = 0 then max s.cfg.tcCycleMin 1 else s.disp.winCycle

/-- Start of the cycle that the windows are in: the cycle start they follow, or where TC_ALIGNED is 0 the last one of the ECLK count from
it (R78, R231). -/
def State.winStart (s : State) : Option Nat :=
  s.disp.winBase.map fun t => if s.disp.aligned then t else t + (s.now - t) / s.winLength * s.winLength

/-- A window of SQ g falls due within 200 ns of now, or did and was polled, in the present cycle, the one before or the next (R231). -/
def State.windowNear (s : State) (g : Fin 512) : Bool :=
  match s.winStart with
  | some t => s.cfg.windows.toList.any fun w => w.on && w.sq == g.val && [t, t + s.winLength, t - s.winLength].any fun c =>
      decide (s.now ≤ c + w.offset + 200) && decide (c + w.offset ≤ s.now + 200)
        && (w.polled == some c || decide (s.now ≤ c + w.offset))
  | none => false

/-- SQ_POLL: the cadence's poll falls due. Within 200 ns of a window's poll the two are one poll, at the window's instant (R231).
(DEDUCED, log entry 41.) -/
def execSqPoll (g : Fin 512) (s : State) : Host.Outcome State Fault Refusal :=
  if s.windowNear g then .next s else .next (s.pollDue g)

/-- POLL_INTERVAL (R171): a new 1 µs interval; waiting polls that may still go out are admitted oldest first within its budget,
and each one still waiting is deferred once more. -/
def State.newInterval (s : State) : State :=
  let l := s.disp.waiting.filter s.mayPoll
  let s := s.updDisp fun d => { d with polls := 0, waiting := l.drop 25 }
  (s.each (l.take 25) State.admitPoll).countBy 0x2012 2 (l.drop 25).length

def execPollInterval (s : State) : Host.Outcome State Fault Refusal := .next s.newInterval

/-- Accesses of ring g on the port, those of a read it has now aside: a read whose ring went back to the pool (R337). -/
def State.orphan (s : State) (g : Fin 512) : Option Rd :=
  s.fab.reads.find? fun r => r.what == .ring g && !((s.sq g).reading.any fun x => x.ids.contains r.id)

/-- Every access with one of these identities is on its way (R59). -/
def State.allOut (s : State) (ids : List Nat) : Bool := s.fab.reads.all fun r => !ids.contains r.id || r.out

/-- What the requester port's FIFO does to a ring read's data (R34, R387). -/
def State.ringHit (s : State) (g : Fin 512) (beats : List Beat) : List Beat × State :=
  match s.fab.reads.find? fun r => r.what == .ring g with
  | some r => s.fifoRead r beats
  | none => (beats, s)

/-- The accesses with these identities have their responses. -/
def State.readsDone (s : State) (ids : List Nat) : State :=
  s.each (s.fab.reads.filter fun r => ids.contains r.id) State.readDone

/-- A window's poll that fell due while a read was in flight goes out once that read finds nothing more (R233).
(DEDUCED, log entry 41.) -/
def State.pollAgain (s : State) (g : Fin 512) : State :=
  if (s.sq g).again then
    let s := s.updSq g fun q => { q with again := false }
    if s.mayPoll g then s.admitPoll g else s
  else s

/-- Two-bit error in the entry cache, in the unit of counter value c (R446): the slice goes from the poisoned entry on, to be fetched
again; a unit poisoned before stops the SQ where it is a unit 0, and fails its entry alone otherwise. Answers the stop cause. -/
def Sq.slicePoison (q : Sq) (c : Half) : Sq × Option Nat :=
  match q.slice.find? fun e => decide ((c - e.at_).toNat < e.bytes.length / 32) with
  | none => (q, none)
  | some e =>
    let before := q.slice.takeWhile fun x => x.at_ != e.at_
    if q.poisoned.contains c then
      if c = e.at_ then ({ q with slice := before }, some 4)
      else
        ({ q with slice := q.slice.map fun x =>
            if x.at_ = e.at_ then { x with poison := x.poison.or (some (32 * (c - e.at_).toNat)) } else x }, none)
    else ({ q with slice := before, poisoned := c :: q.poisoned, seen := [], full := none }, none)

/-- The slice of g held poison at counter value c when a read returned. -/
def State.cachePoison (s : State) (g : Fin 512) (cache : Option Half) : State :=
  match cache with
  | none => s
  | some c =>
    let r := (s.sq g).slicePoison c
    let s := s.updSq g fun _ => r.1
    match r.2 with
    | some k => s.readFails g k
    | none => s

/-- The data of the ring read r has returned: what the scan found decides how it goes on (R170, R173, R187). Where the slice has
lost entries before the read's first unit, they are read again (R446). -/
def State.scanned (s : State) (g : Fin 512) (r : RingRead) (beats : List Beat) : State :=
  let out := scan (poisonUnits beats r.skip r.units) 17 0 (slice (beatData beats) r.skip (32 * r.units)) (s.sq g)
  let s := s.updSq g fun _ => { out.1 with reading := none }
  match out.2, decide (sdiff (s.sq g).next r.at_ < 0) with
  | .stop c, _ => ((s.readFails g c).badHeader g).drainIfShut g
  | .idle, false =>
    (if (s.sq g).walking && (s.sq g).full.isNone then (s.endWalk g 0).drainIfShut g else s.drainIfShut g).pollAgain g
  | _, _ =>
    let s := s.updSq g fun q => { q with again := false }
    if (s.sq g).walking then s.drainSq g else s.readOn g

/-- A ring read returns (R170, R173, R187): the data of the ring read in flight. A return whose size is not the read's, or to one
that still waits for a place of its port, is no answer to it. (DEDUCED, log entry 22.) -/
def State.ringReturn (s : State) (g : Fin 512) (beats : List Beat) (cache : Option Half) : State :=
  match (s.sq g).reading with
  | none => s
  | some r =>
    if answers beats (r.skip + 32 * r.units) = false ∨ s.allOut r.ids = false then s
    else
      let hit := s.ringHit g beats
      let beats := hit.1
      let s := (hit.2.readsDone r.ids).cachePoison g cache
      if r.discard then
        let s := s.updSq g fun q => { q with reading := none }
        (if (s.sq g).walking then s.drainIfShut g else if (s.sq g).hold = none then s.readOn g else s).pollAgain g
      else
        match worst beats with
        | .decode | .targetErr =>
          let s := match (s.sq g).owner with
            | some n => s.count (0x2020 + homePort n) 3
            | none => s
          (s.updSq g fun q => { q with reading := none }).readFails g 3
        | _ => s.scanned g r beats

/-! ## Holds (R174 to R176) -/

/-- R175: discard cached, undispatched entries with any unit at or after FIRST, and hold. A read in flight is discarded
when it returns (R176). An instance left with nothing cached is no longer eligible (R234). (DEDUCED, log entry 22.). (DESIGN CHOICE, log entry 51.) -/
def State.hold (s : State) (n : Fin 128) (i : Nat) (g : Fin 512) (first : Half) : State :=
  let s := s.updSq g fun q =>
    let d := sdiff first q.consumed
    { q with slice := q.slice.takeWhile fun e =>
               decide (((e.at_ - q.consumed).toNat + e.bytes.length / 32 : Int) ≤ d)
             hold := some first, seen := [], full := none
             bad := match q.bad with
               | some b => if sdiff b.1 q.consumed < d then some b else none
               | none => none
             reading := q.letGo.reading }
  let cached := (s.sqsOf n).any fun h => (s.sq h).slice != []
  s.updInst n fun x =>
    { x with invalSq := i, invalAt := (s.sq g).consumed, invalDone := false, wasEligible := x.wasEligible && cached }

/-- RING_INVAL_HOLD: only a 64-bit write counts (R174); a local SQ at or above SQ_COUNT is ignored (R175). -/
def execRingInvalHold (a : Tgt) (n : Fin 128) (sq : Fin 16) (first : Half) (s : State) :
    Host.Outcome State Fault Refusal :=
  .next (s.wholeWrite a (some n) fun s =>
    match s.sqOf n sq.val with
    | some g => s.hold n sq.val g first
    | none => s)

/-- R175: a release lifts the hold, and the block reads on at once. -/
def State.release (s : State) (n : Fin 128) (i : Nat) (g : Fin 512) : State :=
  let s := s.updSq g fun q => { q with hold := none }
  let s := s.updInst n fun x => { x with invalSq := i, invalDone := false }
  s.readOn g

def execRingInvalRelease (a : Tgt) (n : Fin 128) (sq : Fin 16) (s : State) : Host.Outcome State Fault Refusal :=
  .next (s.wholeWrite a (some n) fun s =>
    match s.sqOf n sq.val with
    | some g => s.release n sq.val g
    | none => s)

/-- RING_INVAL_DONE (R176): DONE once any read in flight that was to be discarded has returned. -/
def execRingInvalDone (n : Fin 128) (s : State) : Host.Outcome State Fault Refusal :=
  match s.sqOf n (s.inst n).invalSq with
  | some g =>
    if ((s.sq g).reading.any (·.discard)) then .next s else .next (s.updInst n fun x => { x with invalDone := true })
  | none => .next s

/-! ## Completion rings -/

/-- Move overflow completions into the CQ, oldest first, while it has free entries (R182). The first argument bounds
the recursion. (DEDUCED, log entry 22.) -/
def moveOverflow : Nat → State → Fin 256 → State
  | 0, s, _ => s
  | k + 1, s, q =>
    match (s.cq q).overflow with
    | [] => s
    | h :: rest =>
      if (s.cq q).room = 0 ∨ (s.inst h.inst).state = .failed then s
      else moveOverflow k ((s.updCq q fun c => { c with overflow := rest }).pushCq q h) q

/-- R181: HEAD takes h when 0 ≤ h − HEAD ≤ TAIL − HEAD; any other value is ignored, sets HEAD_ERR and is counted.
Freed entries take the overflow's completions, and a stall ends (R182). -/
def State.writeHead (s : State) (n : Fin 128) (q : Fin 256) (h : Half) : State :=
  let c := s.cq q
  if (h - c.head).toNat ≤ (c.tail - c.head).toNat then
    let s := s.updCq q fun c => { c with head := h, headErr := false, stalled := c.stalled && h == c.head }
    let s := moveOverflow 64 s q
    s.each (s.sqsOf n) fun s g => if s.cqOfSq g = some q then (s.badHeader g).drainIfShut g else s
  else (s.updCq q fun c => { c with headErr := true }).countInst n 7

/-- A HEAD write finds poison in the overflow area: PRIVATE_ERROR against the instance (R145, R446). -/
def State.overflowPoison (s : State) (n : Fin 128) (q : Fin 256) (bad : Bool) : State :=
  if bad && !(s.cq q).overflow.isEmpty then s.failInst n 3 0 else s

def execHeadWrite (a : Tgt) (n : Fin 128) (cq : Fin 8) (v : Word) (bad : Bool) (s : State) : Host.Outcome State Fault Refusal :=
  .next (s.regWrite a (some n) fun s =>
    match s.cqOf n cq.val with
    | some q => if a.hasLow then (s.overflowPoison n q bad).writeHead n q (v.setWidth 32) else s
    | none => s)

/-- R184: the CQ is ARMED, a condition holds under the settings in force (R161), and every counted completion it reports has its
write response. -/
def Cq.irqReady (c : Cq) : Bool :=
  c.armed && c.counted != 0 && (c.counted ≥ c.irqNow.count || (c.irqNow.delay != 0 && c.expired)) && c.acks.isEmpty

/-- R184: raise the interrupt, clearing ARMED, PENDING and the count. -/
def State.fire (s : State) (q : Fin 256) : State :=
  if (s.cq q).irqReady then
    (s.updCq q fun c => { c with armed := false, counted := 0, timer := false, expired := false }).irqCq q
  else s

/-- ARM (R183, R184): an ARM write while the conditions already hold raises the interrupt at once. -/
def execArm (a : Tgt) (n : Fin 128) (cq : Fin 8) (s : State) : Host.Outcome State Fault Refusal :=
  .next (s.regWrite a (some n) fun s =>
    match s.cqOf n cq.val with
    | some q => if a.hasLow then (s.updCq q fun c => { c with armed := true }).fire q else s
    | none => s)

/-- COMPLETION_INTERRUPT (R184). -/
def execCompletionInterrupt (q : Fin 256) (s : State) : Host.Outcome State Fault Refusal := .next (s.fire q)

/-- IRQ_DELAY (R184): IRQ_DELAY has passed since the first of the counted completions. -/
def execIrqDelay (q : Fin 256) (s : State) : Host.Outcome State Fault Refusal :=
  if (s.cq q).timer ∧ (s.cq q).irqNow.delay ≠ 0 then .next ((s.updCq q fun c => { c with timer := false, expired := true }).fire q)
  else .next s

/-- IRQ_ACCEPT (R62): the interrupt presented is taken, and the next one waiting is presented. -/
def execIrqAccept (s : State) : Host.Outcome State Fault Refusal :=
  .next (s.updIrq fun q => if q.shown.isSome then { q with shown := none }.present else q)

/-! ## Enable and shutdown (R185 to R191, R230): decisions of the dictionary's service -/

/-- Committed TC poll load in polls per second times the product of nothing: the exact sum (R230), with SQ g counted
at cadence c. -/
def State.tcLoad (s : State) (g : Fin 512) (c : Nat) : Rat :=
  let sq (h : Fin 512) : Rat :=
    match (s.sq h).owner with
    | some n =>
      if h = g then 10 ^ 9 / (c : Rat)
      else if (s.inst n).isTc && ((s.sq h).state == .enabled || (s.sq h).state == .deferred) then
        10 ^ 9 / ((s.sq h).cadence : Rat)
      else 0
    | none => 0
  let wins : Rat := ((s.cfg.windows.toList.filter (·.on)).length : Rat) * (10 ^ 9 / (s.cfg.tcCycleMin : Rat))
  (allSq.map sq).sum + wins

/-- No ring may be enabled: BLANK or SCRAP (R95), DATA_HALT (R457), ROM mode (R433). -/
def State.noRings (s : State) : Bool :=
  s.life.fuse == .blank || s.life.fuse == .scrap || s.flt.dataHalt || s.pwr.boot != .ready

/-- The instance may hold enabled rings (R185, R186). -/
def IState.mayEnable (i : IState) : Bool := i == .configured || i == .active || i == .quiescing

/-- SQ_ENABLE (R185, R191). (DEDUCED, log entry 32.) -/
def State.enableSq (s : State) (g : Fin 512) : EStatus × State :=
  match (s.sq g).owner with
  | none => (.stateConflict, s)
  | some n =>
    match (s.sq g).state with
    | .enabled | .stopped => (.stateConflict, s)
    | .deferred => (.busyDeferred, s)
    | .draining =>
      if s.noRings then (.stateConflict, s)
      else if (s.inst n).isTc && s.tcLoad g (s.sq g).cadence > 5000000 then (.range, s)
      else (.busyDeferred, (s.updSq g fun q => { q with stopCause := 0 }).setSq g .deferred)
    | .disabled =>
      let cqOn := match s.cqOfSq g with
        | some q => (s.cq q).enabled
        | none => false
      if s.noRings || !(s.inst n).state.mayEnable || !cqOn then (.stateConflict, s)
      else if (s.inst n).isTc && s.tcLoad g (s.sq g).cadence > 5000000 then (.range, s)
      else
        let s := s.updSq g fun q => { q with stopCause := 0, slice := [], seen := [], full := none, bad := none
                                             poisoned := [], walking := false }
        (.ok, s.setSq g .enabled)

/-- Start a shutdown: steps 1 and 2 of R187, and its walk where the ring is ENABLED and `walk` holds (R190, R457). -/
def State.shutdown (s : State) (g : Fin 512) (walk : Bool) : State :=
  let s := s.updSq g fun q =>
    { q with hold := none, seen := [], full := none, shutLast := none, again := false
             bad := if walk then none else q.bad
             reading := q.letGo.reading
             walking := walk, walkEnd := q.consumed + BitVec.ofNat 32 q.size }
  (s.setSq g .draining).drainSq g

/-- SQ_DISABLE (R187, R190, R191). -/
def State.disableSq (s : State) (g : Fin 512) : EStatus × State :=
  match (s.sq g).owner with
  | none => (.stateConflict, s)
  | some _ =>
    match (s.sq g).state with
    | .disabled | .draining => (.ok, s)
    | .deferred => (.ok, s.setSq g .draining)
    | .enabled => (.ok, s.shutdown g true)
    | .stopped => (.ok, s.shutdown g false)

/-- Data jobs of an SQ that have not ended. -/
def State.jobsOf (s : State) (g : Fin 512) : List Job := s.jobs.filter (·.sq == g)

/-- Jobs of a chain, in member order. -/
def State.chainOf (s : State) (c : Nat) : List Job := s.jobs.filter (·.chain == c)

/-- R187 step 4, R217: once every write of an abandoned chain (or lone job) has its response, its members complete
ABORTED in member order. (DEDUCED, log entry 40.) -/
def State.settleAbandoned (s : State) (c : Nat) : State :=
  if (s.chainOf c).any fun j => s.dataOut j.id then s
  else s.each (s.chainOf c) fun s j => match j.ending with
    | some (st, r) => s.retire j st r
    | none => s

/-- Abandon one dispatched job: it issues no further write, takes no more input, and will complete ABORTED with the bytes it
released. One whose status is decided, and which only awaits its writes' responses, has run to its end and keeps it
(R45, R218, R220). (DEDUCED, log entry 40.) (DEDUCED, log entry 37.) -/
def State.abandon (s : State) (j : Job) : State :=
  if j.phase = .draining then s
  else
    ((s.freeUnits j).cancelFwd j).updJob j.id fun k =>
      { k with phase := .draining, ending := some (.aborted, k.released), engine := none, pages := 0, pieces := [], waiting := false }

/-- SHUTDOWN_ABANDON (R187 step 4): 50 µs after acceptance, each job that has not ended is abandoned. -/
def State.abandonAll (s : State) (g : Fin 512) : State :=
  let js := s.jobsOf g
  let s := s.each js fun s j => s.abandon j
  s.each (js.map (·.chain)).eraseDups fun s c => s.settleAbandoned c

def execShutdownAbandon (g : Fin 512) (s : State) : Host.Outcome State Fault Refusal :=
  if (s.sq g).state = .draining ∨ (s.sq g).state = .deferred then .next (s.abandonAll g) else .next s

/-- Mark the newest held completion of g's shutdown as counted; none where no such one is held. -/
def markLast (g : Fin 512) : List Held → Option (List Held)
  | [] => none
  | h :: rest =>
    match markLast g rest with
    | some r => some (h :: r)
    | none => if h.shut = some g then some ({ h with counted := true } :: rest) else none

/-- R184: count the last completion a shutdown wrote, unless it has been counted. -/
def State.countLast (s : State) (g : Fin 512) : State :=
  match s.cqOfSq g with
  | some q =>
    s.updCq q fun c =>
      let c := match markLast g c.overflow, (s.sq g).shutLast with
        | some o, _ => { c with overflow := o }
        | none, some id => c.tally (if s.fab.writes.any (·.id == id) then [id] else [])
        | none, none => c
      { c with overflow := c.overflow.map fun h => if h.shut = some g then { h with shut := none } else h }
  | none => s

/-- Step 5 of R187: DISABLED, or ENABLED at the counter the walk reached where an enable was deferred (R191). -/
def State.endShutdown (s : State) (g : Fin 512) : State :=
  let s := s.countLast g
  let next := if (s.sq g).state = .deferred then SqSt.enabled else .disabled
  let s := s.updSq g fun q => { q with shutLast := none, seen := [], poisoned := [] }
  s.setSq g next

/-- SHUTDOWN_COMPLETE (R187 step 5): every abort completion is written and no job of the SQ remains. -/
def execShutdownComplete (g : Fin 512) (s : State) : Host.Outcome State Fault Refusal :=
  let q := s.sq g
  if (q.state = .draining ∨ q.state = .deferred) ∧ q.slice = [] ∧ q.walking = false ∧ q.bad = none
      ∧ s.jobsOf g = [] then .next (s.endShutdown g)
  else .next s

/-- CQ_ENABLE (R186): enabling arms the CQ (R184). -/
def State.enableCq (s : State) (q : Fin 256) : EStatus × State :=
  match (s.cq q).owner with
  | none => (.stateConflict, s)
  | some n =>
    let c := s.cq q
    if c.enabled || s.noRings || !(s.inst n).state.mayEnable then (.stateConflict, s)
    else if c.size < (c.tail - c.head).toNat then (.range, s)
    else (.ok, s.updCq q fun c => { c with enabled := true, armed := true, irqNow := c.irqSet })

/-- CQ_DISABLE (R186). A disable in DISABLED has no effect. -/
def State.disableCq (s : State) (q : Fin 256) : EStatus × State :=
  match (s.cq q).owner with
  | none => (.stateConflict, s)
  | some n =>
    let c := s.cq q
    if !c.enabled then (.ok, s)
    else if (s.sqsOf n).any (fun g => s.cqOfSq g == some q && (s.sq g).state != .disabled) || c.reserved != 0
        || !c.overflow.isEmpty then (.stateConflict, s)
    else (.ok, s.updCq q fun c => { c with enabled := false })

end Sys2Proof.Machine
end

