-- ==== Sys2Proof/Machine/KeyCache.lean ====
section
/-! DEFINITION. The key cache as a store: slots, handles and generations (R110 to R113), emptying (R115), and the
direct-feed session's loss of its key or its engine (R298). -/

namespace Sys2Proof.Machine

/-- Generation of a slot (R110; DESIGN CHOICE, log entry 8: 1 until first freed). -/
def Keys.gen (k : Keys) (slot : Nat) : Nat := (k.gens.lookup slot).getD 1

/-- The generation after g: after 4,095 comes 1 (R110). (DESIGN CHOICE, log entry 8.) -/
def nextGen (g : Nat) : Nat := if g = 4095 then 1 else g + 1

/-- Advance the generation of one slot (R110). -/
def Keys.bumpGen (k : Keys) (slot : Nat) : Keys := { k with gens := assocSet k.gens slot (nextGen (k.gen slot)) }

/-- The run held at a first slot number. -/
def Keys.slot (k : Keys) (i : Nat) : Option Slot := k.slots.lookup i

/-- Handle of the slot at number i (R110). -/
def Keys.handle (k : Keys) (i : Nat) : Nat := k.gen i * 8192 + i

/-- Change a slot. -/
def State.updSlot (s : State) (i : Nat) (f : Slot → Slot) : State :=
  s.updKeys fun k => { k with slots := k.slots.map fun p => if p.1 = i then (p.1, f p.2) else p }

/-- End a direct-feed session in FAILED with an ERR code, its context and buffer returned erased (R298). -/
def Df.fail (d : Df) (err result : Nat) : Df :=
  { d with state := .failed, err := err, result := (Vector.replicate 8 0#64).set 0 (BitVec.ofNat 64 result)
           msg := [], expect := Vector.replicate 8 none, buffered := 0, key := none, engine := none, buffer := none, failedOn := [] }

/-- The session is OPEN or BUSY. -/
def Df.running (d : Df) : Bool := d.state == .openS || d.state == .busy

/-- Sessions keyed by an emptied slot fail with this code (R298, R299). -/
def State.failDfOf (s : State) (i err : Nat) : State :=
  { s with insts := s.insts.map fun x =>
      if x.df.running && x.df.key == some i then { x with df := x.df.fail err 0 } else x }

/-- Empty a slot: shares gone, the generation of each slot of its run advanced (R110, R115). Jobs and sessions that
hold its key lose it. -/
def State.emptySlot (s : State) (i : Nat) (err : Nat) : State :=
  match s.keys.slot i with
  | none => s
  | some x =>
    let s := s.updKeys fun k =>
      (List.range x.run).foldl (fun k d => k.bumpGen (i + d)) { k with slots := k.slots.filter (·.1 != i) }
    let s := s.failDfOf i err
    { s with jobs := s.jobs.map fun j => if j.key = some i then { j with stale := true } else j }

/-- Empty every slot that satisfies p. -/
def State.emptySlots (s : State) (p : Slot → Bool) (err : Nat) : State :=
  s.each ((s.keys.slots.filter fun q => p q.2).map (·.1)) fun s i => s.emptySlot i err

/-- Remove the edge key table entries that satisfy p (R115, R274). -/
def State.emptyEdge (s : State) (p : EdgeEntry → Bool) : State :=
  s.updEdge fun e => { e with table := e.table.filter fun q => !p q.2 }

/-- Empty what instance n holds: its slots and edge entries (R115). -/
def State.emptyInst (s : State) (n : Fin 128) : State :=
  (s.emptySlots (fun x => x.owner == n) 5).emptyEdge fun e => e.owner == n

/-- Raise KB_ZEROISE (R67): any transfer on the bus is withdrawn by the job's own end. -/
def State.zeroise (s : State) : State := s.updPins fun p => { p with kbZeroise := true }

/-- Jobs that have started with an erased key end with ENGINE_FAULT, and write nothing more (R256). -/
def State.failStale (s : State) : State :=
  s.each (s.jobs.filter fun j => j.stale && j.phase != .resolving && j.phase != .assigned && j.phase != .draining)
    fun s j => s.endJob j .engineFault 0

/-- Resolutions in progress that p picks will install nothing (R104). -/
def State.staleResolving (s : State) (p : Job → Bool) : State :=
  { s with jobs := s.jobs.map fun j => if j.phase = .resolving ∧ p j then { j with stale := true } else j }

/-- What session k had with the dictionary service goes: its transfer, its waiting requests, the batch in process (R352). -/
def Dict.dropSession (d : Dict) (k : Fin 8) : Dict :=
  { d with
    transfers := d.transfers.filter (·.who != .session k)
    waiting := d.waiting.filter fun x => match x with
      | .single w _ => w != .session k
      | .batch b => b.k != k
    batch := d.batch.filter fun b => b.k != k }

/-- A streamed segment of session k is abandoned (R436). -/
def Jnl.dropSession (j : Jnl) (k : Fin 8) : Jnl := { j with updOpen := j.updOpen.filter fun u => u.1 != .session k }

/-- Close session or opening k: its keys and everything it had open are gone (R352, R368). -/
def State.closeSession (s : State) (k : Fin 8) : State :=
  ((s.updEoa fun e => { e with sessions := e.sessions.set k none }).updDict fun d => d.dropSession k).updJnl fun j =>
    j.dropSession k

/-- Close every session and opening (R368). -/
def State.closeSessions (s : State) : State := s.each (List.finRange 8) fun s k => s.closeSession k

/-- Jobs that hold a key outside its slot lose it too (R256). -/
def State.staleLoose (s : State) : State :=
  { s with jobs := s.jobs.map fun j => if j.pend.isSome ∨ j.goneKey.isSome then { j with stale := true } else j }

/-- Erase the whole key cache with its intermediate nodes (R104, R115); every EOA session closes (R368). -/
def State.eraseCache (s : State) (err : Nat) : State :=
  let s := (s.staleResolving fun _ => true).staleLoose
  let s := (s.emptySlots (fun _ => true) err).failStale
  (s.updKeys fun k => { k with nodes := [], gone := [] }).closeSessions

/-- Erase the key cache and the edge key table, raising KB_ZEROISE (R67, R115). -/
def State.eraseKeys (s : State) (err : Nat) : State := ((s.eraseCache err).emptyEdge fun _ => true).zeroise

/-- Slots in use of instance n. -/
def State.slotsUsed (s : State) (n : Fin 128) : Nat :=
  ((s.keys.slots.filter (·.2.owner == n)).map (·.2.run)).sum

end Sys2Proof.Machine
end

