-- ==== Sys2Proof/Machine/Instances.lean ====
section
/-! DEFINITION. Instances: the pool (R127, R128), CREATE, ACTIVATE, QUIESCE, RESET, DESTROY, RESHARE (R129 to R149),
and the reset sequence (R143, R144). -/

namespace Sys2Proof.Machine

/-! ## The pool -/

/-- The instance holds resources. -/
def Inst.held (i : Inst) : Bool := i.state != .free

/-- Credits not drawn by any instance but n (R127). -/
def State.freeCredits (s : State) (but : Option (Fin 128)) : Nat :=
  16384 - ((allInst.filter (fun m => some m != but)).map fun m => (s.inst m).drawn).sum

/-- Edge entries in no other instance's quota. -/
def State.freeEdge (s : State) (but : Option (Fin 128)) : Nat :=
  512 - ((allInst.filter (fun m => some m != but && (s.inst m).held)).map fun m => (s.inst m).live.edgeQuota).sum

/-- TC units of kind k (0 CS, 1 CE, 2 DE, 3 LF) in the pool (R127). -/
def tcPool (k : Nat) : Nat := byteAt [8#8, 8#8, 4#8, 2#8] k

def State.freeTc (s : State) (but : Option (Fin 128)) (k : Nat) : Nat :=
  tcPool k - ((allInst.filter (fun m => some m != but && (s.inst m).held)).map
    fun m => byteAt (s.inst m).live.tcReserve k).sum

/-- The slot range overlaps another instance's (R128). -/
def State.slotClash (s : State) (n : Fin 128) (base quota : Nat) : Bool :=
  quota != 0 && allInst.any fun m =>
    m != n && (s.inst m).held && (s.inst m).live.slotQuota != 0
      && (s.inst m).live.slotBase < base + quota && base < (s.inst m).live.slotBase + (s.inst m).live.slotQuota

/-- The lowest-numbered run of free SQs of the given length (R127). -/
def State.sqRun (s : State) (len : Nat) : Option Nat :=
  (List.range (513 - len)).find? fun b =>
    (List.range len).all fun i => if h : b + i < 512 then (s.sq ⟨b + i, h⟩).owner.isNone else false

/-- The lowest-numbered run of free CQs of the given length (R127). -/
def State.cqRun (s : State) (len : Nat) : Option Nat :=
  (List.range (257 - len)).find? fun b =>
    (List.range len).all fun i => if h : b + i < 256 then (s.cq ⟨b + i, h⟩).owner.isNone else false

/-! ## Units of TC reservations (R225) -/

/-- Units per cluster, and the number of the kind's first engine; kind 0 is the sequencers. -/
def perCluster (k : Nat) : Nat := byteAt [4#8, 4#8, 2#8, 1#8] k
def firstEng (k : Nat) : Nat := if k = 1 then 0 else if k = 2 then 16 else if k = 3 then 24 else 28

/-- Unit u of kind k serves BULK: unowned, not quarantined, its cluster not fenced. -/
def Units.bulk (x : Units) (k u : Nat) : Bool :=
  !(if h : u / perCluster k < 4 then x.fenced[u / perCluster k] else true) &&
  if k = 0 then (if h : u < 16 then x.cs[u].owner.isNone else false)
  else if h : firstEng k + u < 36 then x.eng[firstEng k + u].owner.isNone && !x.eng[firstEng k + u].quar else false

/-- Give unit u of kind k to an owner; a reserved sequencer takes a 32 KiB partition of its cluster's staging (R225). -/
def Units.setOwner (x : Units) (k u : Nat) (o : Option (Fin 128)) : Units :=
  if k = 0 then (if h : u < 16 then { x with cs := x.cs.set u ⟨o, if o.isSome then 32 else 0⟩ } else x)
  else if h : firstEng k + u < 36 then
    { x with eng := x.eng.set (firstEng k + u) { x.eng[firstEng k + u] with owner := o } }
  else x

/-- BULK units of kind k in cluster c. -/
def Units.bulkIn (x : Units) (k c : Nat) : List Nat :=
  ((List.range (perCluster k)).map fun i => c * perCluster k + i).filter (x.bulk k)

/-- R225: the cluster with the most BULK units of the kind, the lowest number on ties; in it the highest unit. -/
def Units.pick (x : Units) (k : Nat) : Option Nat :=
  let best := (List.range 4).foldl (fun b c => if (x.bulkIn k b).length < (x.bulkIn k c).length then c else b) 0
  (x.bulkIn k best).getLast?

/-- Assign m units of kind k to n; none where they cannot be had. -/
def assignUnits (n : Fin 128) (k : Nat) : Nat → Units → Option Units
  | 0, x => some x
  | m + 1, x =>
    match x.pick k with
    | some u => assignUnits n k m (x.setOwner k u (some n))
    | none => none

/-- Assign a whole reservation: sequencers, cipher, digest, lattice-and-field engines. -/
def assignAll (n : Fin 128) (r : Bytes) (x : Units) : Option Units :=
  [0, 1, 2, 3].foldl (fun x k => x.bind (assignUnits n k (byteAt r k))) (some x)

/-- KiB of cluster c's 512 KiB of staging that serve BULK: the rest of it (R42, R223). -/
def Units.bulkStaging (x : Units) (c : Fin 4) : Nat :=
  512 - (((List.finRange 16).filter fun q => q.val / 4 == c.val).map fun q => x.cs[q].staging).sum

/-- Return every unit of n to BULK. -/
def Units.release (x : Units) (n : Fin 128) : Units :=
  { x with cs := x.cs.map fun c => if c.owner = some n then ⟨none, 0⟩ else c
           eng := x.eng.map fun e => if e.owner = some n then { e with owner := none } else e
           degraded := x.degraded.filter (· != n) }

/-! ## Descriptor checks (R129, R133) -/

/-- A staged value lies in its range (R129). -/
def Desc.inRange (d : Desc) : Bool :=
  1 ≤ d.credits && d.credits ≤ 16384 && 1 ≤ d.weight && d.weight ≤ 255 && 1 ≤ d.sqCount && d.sqCount ≤ 16
    && 1 ≤ d.cqCount && d.cqCount ≤ 8 && d.slotBase ≤ 8191 && d.slotQuota ≤ 8192 && d.edgeQuota ≤ 512
    && byteAt d.colours 0 ≤ 4 && d.colours.length == 5 && allZero (d.colours.drop (1 + byteAt d.colours 0))
    && d.tclass ≤ 1 && d.tcReserve.length == 4 && [0, 1, 2, 3].all fun k => byteAt d.tcReserve k ≤ tcPool k

/-- The first two checks of R133. -/
def Desc.rangesOk (d : Desc) : Bool :=
  d.inRange && d.slotBase + d.slotQuota ≤ 8192 &&
    (if d.tclass = 0 then allZero d.tcReserve else byteAt d.tcReserve 0 != 0)

/-- POOL_SHORT bits from the conditions found (R128). -/
def shortBits (l : List (Nat × Bool)) : Nat := (l.map fun p => if p.2 then 2 ^ p.1 else 0).sum

/-! ## CREATE, ACTIVATE, QUIESCE -/

/-- What the pool cannot supply for a descriptor, as POOL_SHORT bits (R128, R133). -/
def State.shortFor (s : State) (n : Fin 128) (d : Desc) : Nat :=
  shortBits ([(0, decide (s.freeCredits (some n) < d.credits)), (1, (s.sqRun d.sqCount).isNone), (2, (s.cqRun d.cqCount).isNone),
    (3, s.slotClash n d.slotBase d.slotQuota), (4, decide (s.freeEdge (some n) < d.edgeQuota))] ++
    [0, 1, 2, 3].map fun k => (5 + k, decide (s.freeTc (some n) k < byteAt d.tcReserve k)
      || (assignUnits n k (byteAt d.tcReserve k) s.units).isNone))

/-- Give n the SQs b to b + len − 1, at their defaults. -/
def State.takeSqs (s : State) (n : Fin 128) (b len : Nat) : State :=
  s.each (allSq.filter fun g => b ≤ g.val && g.val < b + len) fun s g =>
    s.updSq g fun _ => { Sq.reset with owner := some n }

def State.takeCqs (s : State) (n : Fin 128) (b len : Nat) : State :=
  s.each (allCq.filter fun q => b ≤ q.val && q.val < b + len) fun s q =>
    s.updCq q fun _ => { Cq.reset with owner := some n }

/-- R131, R133: the creation transaction, from the instance's staged values. -/
def State.create (s : State) (n : Fin 128) : EStatus × State :=
  let d := (s.inst n).staged
  if (s.inst n).state != .free then (.stateConflict, s)
  else if !d.rangesOk then (.range, s)
  else
    match s.sqRun d.sqCount, s.cqRun d.cqCount, assignAll n d.tcReserve s.units with
    | some sb, some cb, some u =>
      if s.shortFor n d = 0 then
        let s := { s with units := { u with short := 0 } }
        let s := (s.takeSqs n sb d.sqCount).takeCqs n cb d.cqCount
        (.ok, s.updInst n fun i =>
          { i with live := d, state := .configured, quiesced := false, credits := d.credits, drawn := d.credits
                   outstanding := 0, sqBase := some sb, cqBase := some cb, vtime := 0, wasEligible := false, rr := 0 })
      else (.stateConflict, s.updUnits fun x => { x with short := s.shortFor n d })
    | _, _, _ => (.stateConflict, s.updUnits fun x => { x with short := s.shortFor n d })

/-- ACTIVATE (R131). -/
def State.activate (s : State) (n : Fin 128) : EStatus × State :=
  match (s.inst n).state with
  | .configured | .active => (.ok, s.updInst n fun i => { i with state := .active, quiesced := false })
  | _ => (.stateConflict, s)

/-- QUIESCE (R131). A direct-feed session goes on (R299). -/
def State.quiesce (s : State) (n : Fin 128) : EStatus × State :=
  match (s.inst n).state with
  | .active => (.ok, s.updInst n fun i => { i with state := .quiescing })
  | .quiescing => (.ok, s)
  | .configured => (.ok, s.updInst n fun i => { i with quiesced := true })
  | _ => (.stateConflict, s)

/-- Writes of instance n without a response. -/
def State.writesOut (s : State) (n : Fin 128) : Bool := s.fab.writes.any (·.inst == n)

/-- No log bit of n waits or is being written (R140, R151). (DEDUCED, log entry 39.) -/
def Inst.logIdle (i : Inst) : Bool := i.logQ.isEmpty && i.logOp.isNone

/-- QUIESCE_COMPLETE (R131). (DESIGN CHOICE, log entry 51.) -/
def execQuiesceComplete (n : Fin 128) (s : State) : Host.Outcome State Fault Refusal :=
  let i := s.inst n
  if i.state = .quiescing ∧ i.outstanding = 0 ∧ s.writesOut n = false ∧ i.logIdle then
    .next (s.updInst n fun i => { i with state := .configured, quiesced := true })
  else .next s

/-! ## Reset and destroy -/

/-- The hand after h: after 4,095 comes 1 (R141). -/
def nextHand (h : Nat) : Nat := if h = 4095 then 1 else h + 1

/-- Abandon the open transfers of an instance's mailbox (R352). -/
def State.dropTransfers (s : State) (n : Fin 128) : State :=
  s.updDict fun d =>
    { d with transfers := d.transfers.filter (·.who != .inst n), boxes := d.boxes.set n { d.boxes[n] with doneBytes := 0 } }

/-- A job has started when it holds an engine, has data in flight, or waits on the bus, a forward or an end. -/
def Job.started (j : Job) : Bool :=
  match j.phase with
  | .assigned | .resolving | .lists | .context => false
  | _ => true

/-- Take out every job of n that p picks, without a completion (R142, R144). -/
def State.cancelJobs (s : State) (n : Fin 128) (p : Job → Bool) : State :=
  s.each (s.jobs.filter fun j => j.inst == n && p j) fun s j => s.retire j .aborted 0

/-- What an advance of the hand of n discards (R142): the writes that wait to be issued and the write-backs that are due, completions
and write-backs counted (R391). (DESIGN CHOICE, log entry 49.) -/
def State.discardOld (s : State) (n : Fin 128) : State :=
  (s.each (s.sqsOf n) fun s g => if (s.sq g).wbDue then s.countInst n 3 else s).dropWaiting n true

/-- Steps 1 and 2 of R144: fetching stops, slices and overflow areas are discarded, the hand advances, and jobs
that have not started, or that only waited for writes now discarded, are dropped. (DESIGN CHOICE, log entry 49.) -/
def State.startReset (s : State) (n : Fin 128) : State :=
  let s := s.discardOld n
  let s := s.each (s.sqsOf n) fun s g => s.updSq g fun q =>
    { q.letGo with
      slice := [], seen := [], full := none, bad := none, poisoned := [], wbDue := false, walking := false, again := false
      wbFlight := q.wbFlight.filter fun i => s.fab.writes.any (·.id == i) }
  let s := s.each (s.cqsOf n) fun s q => s.updCq q fun c =>
    { c with overflow := [] }
  let s := s.updInst n fun i =>
    { i with state := .resetting, resetStep := 1, hand := nextHand i.hand, df := i.df.idle, pelResult := 0
             pelPeer := none }
  (s.cancelJobs n fun j => !j.started || (j.phase == .draining && !s.dataOut j.id)).dropTransfers n

/-- RESET and SELF_RESET (R131): in RESETTING it merges with the reset under way. -/
def State.resetInst (s : State) (n : Fin 128) : EStatus × State :=
  match (s.inst n).state with
  | .configured | .active | .quiescing | .failed => (.ok, s.startReset n)
  | .resetting => (.ok, s)
  | .free => (.stateConflict, s)

/-- ENGINE_STOP_TIMEOUT (R144 step 2, R145): engines still running superseded jobs of n stop at once. -/
def execEngineStopTimeout (n : Fin 128) (s : State) : Host.Outcome State Fault Refusal :=
  match (s.inst n).state with
  | .resetting | .failed => .next (s.cancelJobs n fun _ => true)
  | _ => .next s

/-- Disable every ring of n, keeping the descriptors (R144 step 4, R175). -/
def State.disableRings (s : State) (n : Fin 128) : State :=
  let s := s.each (s.sqsOf n) fun s g =>
    let s := s.updSq g fun q => { q with hold := none, walking := false, shutLast := none }
    if (s.sq g).state = .disabled then s else s.setSq g .disabled
  s.each (s.cqsOf n) fun s q =>
    s.updCq q fun c => { c with enabled := false, overflow := [], stalled := false, reserved := 0 }

/-- Clear the windows of an SQ that leaves its instance (R230). -/
def State.clearWindows (s : State) (p : Nat → Bool) : State :=
  s.updCfg fun c => { c with windows := c.windows.map fun w => if p w.sq then { w with on := false } else w }

/-- Return the SQs that p picks to the pool. -/
def State.freeSqs (s : State) (p : Fin 512 → Bool) : State :=
  (s.each (allSq.filter p) fun s g => s.updSq g fun _ => Sq.reset).clearWindows
    fun k => if h : k < 512 then p ⟨k, h⟩ else false

def State.freeCqs (s : State) (p : Fin 256 → Bool) : State :=
  s.each (allCq.filter p) fun s q => s.updCq q fun _ => Cq.reset

/-- Return every resource of n to the pool and enter FREE; INST_ERR is cleared (R131, R139). (DEDUCED, log entry 39.) (DESIGN CHOICE, log entry 49.). (DESIGN CHOICE, log entry 51.) -/
def State.freeInst (s : State) (n : Fin 128) : State :=
  let s := s.emptyInst n
  let s := (s.freeSqs fun g => (s.sq g).owner == some n).freeCqs fun q => (s.cq q).owner == some n
  let s := (s.updUnits fun u => u.release n).dropTransfers n
  s.updInst n fun i =>
    { Inst.blank i.staged i.hand with
      logBase := i.logBase, logLow := i.logLow, logPages := i.logPages, logEnable := i.logEnable, logBank := i.logBank
      logOverflow := i.logOverflow, logQ := i.logQ, logOp := i.logOp, pelAccept := i.pelAccept }

/-- RESET_COMPLETE (R143, R144): every write has its response and its log bit, and no job of the old hand remains.
Steps 4 and 5, and FREE where the reset is part of a DESTROY (R131). -/
def State.endReset (s : State) (n : Fin 128) : State :=
  let s := (s.emptyInst n).disableRings n
  let s := s.updInst n fun i =>
    Inst.settle { i with outstanding := 0, quiesced := false, state := .configured, resetStep := 0 }
  if (s.inst n).destroying then s.freeInst n else s

def execResetComplete (n : Fin 128) (s : State) : Host.Outcome State Fault Refusal :=
  let i := s.inst n
  if i.state = .resetting ∧ s.writesOut n = false ∧ i.logIdle ∧ (s.jobs.any (·.inst == n)) = false then
    .next (s.endReset n)
  else .next s

/-- DESTROY (R131): the hand advances exactly once; refused for instance 0. -/
def State.destroy (s : State) (n : Fin 128) : EStatus × State :=
  if n = 0 then (.stateConflict, s)
  else
    match (s.inst n).state with
    | .configured =>
      let s := (s.discardOld n).updInst n fun i => { i with hand := nextHand i.hand }
      (.ok, s.freeInst n)
    | .failed => (.ok, (s.startReset n).updInst n fun i => { i with destroying := true })
    | _ => (.stateConflict, s)

/-! ## RESHARE (R147 to R149) -/

/-- Numbers b to b + len − 1 of SQs are free. -/
def State.sqsFree (s : State) (b len : Nat) : Bool :=
  (List.range len).all fun i => if h : b + i < 512 then (s.sq ⟨b + i, h⟩).owner.isNone else false
def State.cqsFree (s : State) (b len : Nat) : Bool :=
  (List.range len).all fun i => if h : b + i < 256 then (s.cq ⟨b + i, h⟩).owner.isNone else false

/-- POOL_SHORT bits of a RESHARE from the live descriptor l to d (R149). -/
def State.shortForShare (s : State) (n : Fin 128) (l d : Desc) : Nat :=
  let i := s.inst n
  shortBits ([(0, d.credits > l.credits && s.freeCredits (some n) < d.credits),
    (1, d.sqCount > l.sqCount && !s.sqsFree (i.sqBase.getD 512 + l.sqCount) (d.sqCount - l.sqCount)),
    (2, d.cqCount > l.cqCount && !s.cqsFree (i.cqBase.getD 256 + l.cqCount) (d.cqCount - l.cqCount)),
    (3, d.slotQuota > l.slotQuota && s.slotClash n d.slotBase d.slotQuota),
    (4, d.edgeQuota > l.edgeQuota && s.freeEdge (some n) < d.edgeQuota)] ++
    [0, 1, 2, 3].map fun k => (5 + k, i.state == .configured &&
      (decide (s.freeTc (some n) k < byteAt d.tcReserve k)
        || (assignUnits n k (byteAt d.tcReserve k) (s.units.release n)).isNone)))

/-- The slot run lies, at least in part, in the removed part of the range. -/
def inRemoved (l d : Desc) (p : Nat × Slot) : Bool := d.slotBase + d.slotQuota < p.1 + p.2.run && p.1 < l.slotBase + l.slotQuota

/-- Conflicts of R149 other than a short pool. -/
def State.shareConflict (s : State) (n : Fin 128) (l d : Desc) : Bool :=
  let i := s.inst n
  (s.sqsOf n).any (fun g => d.sqCount ≤ s.localSq n g && (s.sq g).state != .disabled)
    || (s.cqsOf n).any (fun q => d.cqCount ≤ q.val - i.cqBase.getD 0 && (s.cq q).enabled)
    || d.slotBase != l.slotBase
    || (d.slotQuota < l.slotQuota
        && s.keys.slots.any fun p => p.2.owner == n && p.2.pinned && inRemoved l d p)
    || d.edgeQuota < (s.edge.table.filter (·.2.owner == n)).length
    || ((d.tclass != l.tclass || d.tcReserve != l.tcReserve) && i.state != .configured)

/-- RESHARE: every staged value in one step, or none. (DESIGN CHOICE, log entry 49.). (DESIGN CHOICE, log entry 51.) -/
def State.reshare (s : State) (n : Fin 128) : EStatus × State :=
  let i := s.inst n
  let d := i.staged
  let l := i.live
  if !i.state.mayEnable then (.stateConflict, s)
  else if !d.rangesOk then (.range, s)
  else if s.shareConflict n l d then (.stateConflict, s)
  else if s.shortForShare n l d ≠ 0 then
    (.stateConflict, s.updUnits fun x => { x with short := s.shortForShare n l d })
  else
    -- in CONFIGURED the units are returned and assigned again (R225); elsewhere they may not change (R149)
    match (if i.state = .configured then assignAll n d.tcReserve (s.units.release n) else some s.units) with
    | none => (.stateConflict, s)
    | some u =>
      let s := { s with units := { u with short := 0 } }
      let sb := i.sqBase.getD 0
      let cb := i.cqBase.getD 0
      let s := s.freeSqs fun g => (s.sq g).owner == some n && sb + d.sqCount ≤ g.val
      let s := s.freeCqs fun q => (s.cq q).owner == some n && cb + d.cqCount ≤ q.val
      let s := s.takeSqs n (sb + l.sqCount) (d.sqCount - l.sqCount)
      let s := s.takeCqs n (cb + l.cqCount) (d.cqCount - l.cqCount)
      let gone := (s.keys.slots.filter fun p => p.2.owner == n && inRemoved l d p).map (·.1)
      let s := s.each gone fun s k => s.emptySlot k 5
      (.ok, s.updInst n fun i =>
        Inst.settle { i with live := d, credits := d.credits, drawn := max i.drawn d.credits })

end Sys2Proof.Machine
end

