-- ==== Sys2Proof/Machine/Operands.lean ====
section
/-! DEFINITION. Operand forms of the entries: algorithm and opcode tables (R197, R198), bodies (R203 to R211), the path
descriptor (R103), fragment lists (R199, R200), and the checks of steps 1 to 4 of R194. -/

namespace Sys2Proof.Machine

/-! ## Tables of R197 and R198 -/

/-- Body layouts (R203, R206, R207, R211). -/
inductive Layout where
  | plain | sym | digest | operand | proto
  deriving DecidableEq, Repr

/-- How an opcode names its key (the Key column of R198). -/
inductive KeyUse where
  | noKey | required | derive | wrap | handleOnly | handlePrev
  deriving DecidableEq, Repr

/-- Body units, layout and key of an opcode (R198); none where the opcode is not in the table. -/
def opInfo : Nat → Option (Nat × Layout × KeyUse)
  | 0x0001 => some (0, .plain, .noKey)
  | 0x0100 | 0x0101 | 0x0110 | 0x0111 | 0x0120 | 0x0121 => some (3, .sym, .required)
  | 0x0200 | 0x0201 => some (2, .digest, .noKey)
  | 0x0202 | 0x0203 => some (2, .digest, .required)
  | 0x0300 => some (1, .operand, .derive)
  | 0x0301 => some (1, .operand, .noKey)
  | 0x0302 => some (2, .operand, .wrap)
  | 0x0303 => some (1, .operand, .handleOnly)
  | 0x0304 => some (1, .operand, .handlePrev)
  | 0x0305 => some (1, .operand, .required)
  | 0x0400 => some (2, .operand, .required)
  | 0x0401 => some (3, .operand, .noKey)
  | 0x0402 | 0x0403 => some (2, .operand, .noKey)
  | 0x0404 => some (1, .operand, .required)
  | 0x0405 | 0x0406 => some (3, .operand, .noKey)
  | 0x0500 => some (1, .operand, .noKey)
  | 0x0600 | 0x0601 | 0x0602 | 0x0603 => some (3, .proto, .required)
  | _ => none

/-- Algorithm codes of an opcode (R197). -/
def opAlgs : Nat → List Nat
  | 0x0001 | 0x0300 | 0x0301 | 0x0302 | 0x0303 | 0x0304 => [0x00]
  | 0x0100 | 0x0101 => [0x01, 0x02, 0x03]
  | 0x0110 | 0x0111 => [0x10, 0x11, 0x12]
  | 0x0120 | 0x0121 => [0x20, 0x21]
  | 0x0200 | 0x0201 => [0x30, 0x31, 0x32, 0x33, 0x34, 0x38, 0x39, 0x3A, 0x3C, 0x3D]
  | 0x0202 | 0x0203 => [0x31, 0x32, 0x33, 0x38, 0x39, 0x3A]
  | 0x0305 => [0x58, 0x59, 0x5A]
  | 0x0400 => [0x40, 0x41, 0x42, 0x44, 0x48, 0x49, 0x4A]
  | 0x0401 => [0x40, 0x41, 0x42, 0x44, 0x45, 0x48, 0x49, 0x4A]
  | 0x0402 => [0x40, 0x41, 0x42, 0x48, 0x49, 0x4A, 0x50, 0x51, 0x52, 0x58, 0x59, 0x5A]
  | 0x0403 | 0x0404 => [0x50, 0x51, 0x52]
  | 0x0405 => [0x60]
  | 0x0406 => [0x58, 0x59, 0x5A]
  | 0x0500 => [0x70]
  | 0x0600 | 0x0601 => [0x01, 0x03]
  | 0x0602 | 0x0603 => [0x01]
  | _ => []

/-- The kind of engine an opcode runs on; none where it needs none (R238, R241, R278, R301). -/
def engineOf (op : Nat) : Option EngineKind :=
  if op ∈ [0x0100, 0x0101, 0x0110, 0x0111, 0x0120, 0x0121, 0x0600, 0x0601, 0x0602, 0x0603] then some .ce
  else if op ∈ [0x0200, 0x0201, 0x0202, 0x0203] then some .de
  else if op ∈ [0x0305, 0x0400, 0x0401, 0x0402, 0x0403, 0x0404, 0x0405, 0x0406] then some .lf
  else none

/-- Number of a TC reservation byte for an engine kind (R129). -/
def tcByte : EngineKind → Nat
  | .ce => 1
  | .de => 2
  | .lf => 3
  | .el => 4

/-- Public key, signature and KEM ciphertext lengths of R306, by ALG; RSA (0x44, 0x45) has none fixed. -/
def pubLen : Nat → Nat
  | 0x40 | 0x58 => 65
  | 0x41 | 0x59 => 97
  | 0x42 | 0x5A => 32
  | 0x48 => 1312
  | 0x49 => 1952
  | 0x4A => 2592
  | 0x50 => 800
  | 0x51 => 1184
  | 0x52 => 1568
  | _ => 0

def sigLen : Nat → Nat
  | 0x40 | 0x42 => 64
  | 0x41 => 96
  | 0x48 => 2420
  | 0x49 => 3309
  | 0x4A => 4627
  | _ => 0

def ctLen : Nat → Nat
  | 0x50 => 768
  | 0x51 => 1088
  | 0x52 => 1568
  | _ => 0

/-- Digest bytes of a hash code (R279); a SHAKE pre-hash has 32 or 64 (R307). -/
def hashLen : Nat → Nat
  | 0x30 => 28
  | 0x31 | 0x34 | 0x38 => 32
  | 0x32 | 0x39 => 48
  | 0x33 | 0x3A => 64
  | 0x3C => 32
  | 0x3D => 64
  | _ => 0

def isShake (alg : Nat) : Bool := alg == 0x3C || alg == 0x3D

/-! ## Offending bytes (R219)

A check lists the offsets of what offends; the location names the lowest (DEDUCED, log entry 11). -/

/-- off when c holds. (DEDUCED, log entry 11.) -/
def badIf (c : Bool) (off : Nat) : List Nat := if c then [off] else []

/-- The first non-zero byte of n bytes at off. -/
def nonZero (b : Bytes) (off n : Nat) : List Nat := (((List.range n).map (off + ·)).find? fun i => byteAt b i != 0).toList

/-- Bits 63:52 of the address at off are zero (R12). -/
def highAddr (b : Bytes) (off : Nat) : List Nat :=
  if byteAt b (off + 6) / 16 ≠ 0 then [off + 6] else badIf (byteAt b (off + 7) != 0) (off + 7)

/-- R199: an operand of length 0 has address 0 and NFRAG 0; one of another length has an address; NFRAG at most 1,024.
The NFRAG offset is none where no list is permitted. -/
def opndBad (b : Bytes) (addr len : Nat) (nf : Option Nat) : List Nat :=
  highAddr b addr ++ badIf ((le b addr 8 == 0) != (len == 0)) addr ++
    match nf with
    | some o => badIf ((len == 0 && le b o 2 != 0) || 1024 < le b o 2) o
    | none => []

/-- An operand that must be absent: address and length zero. -/
def absent (b : Bytes) (addr len n : Nat) : List Nat := nonZero b addr 8 ++ nonZero b len n

/-! ## Step 2: the bodies -/

def isEnc (op : Nat) : Bool := op == 0x0100 || op == 0x0110
def isAead (op : Nat) : Bool := op == 0x0100 || op == 0x0101
def isMac (op : Nat) : Bool := op == 0x0120 || op == 0x0121

/-- IV_LEN and TAG_LEN permitted for an ALG and opcode (R204). -/
def ivLenOk (op alg n : Nat) : Bool :=
  match alg with
  | 0x01 => if op = 0x0100 then n == 0 else n == 12
  | 0x02 => 7 ≤ n && n ≤ 13
  | 0x03 | 0x21 => n == 12
  | 0x20 => n == 0
  | _ => n == 16

def tagLenOk (alg n : Nat) : Bool :=
  match alg with
  | 0x01 | 0x21 => 12 ≤ n && n ≤ 16
  | 0x02 => n % 2 == 0 && 4 ≤ n && n ≤ 16
  | 0x03 => n == 16
  | 0x20 => 4 ≤ n && n ≤ 16
  | _ => n == 0

/-- Step 2 of R194 for the symmetric body (R203, R204). -/
def symBad (b : Bytes) (op alg : Nat) : List Nat :=
  let len := le b 24 4
  opndBad b 16 len (some 28)
    ++ (if isMac op then nonZero b 32 8 ++ nonZero b 30 2 else opndBad b 32 len (some 30))
    ++ (if isAead op then opndBad b 40 (le b 48 2) none else absent b 40 48 2)
    ++ badIf (!tagLenOk alg (byteAt b 50)) 50 ++ badIf (!ivLenOk op alg (byteAt b 51)) 51
    ++ nonZero b 52 4 ++ opndBad b 56 (byteAt b 50) none
    ++ nonZero b (64 + min 16 (byteAt b 51)) (16 - byteAt b 51)
    ++ highAddr b 80 ++ badIf ((le b 80 8 != 0) != (op == 0x0100 && alg == 0x01)) 80 ++ nonZero b 88 8

/-- Step 2 for the digest body (R206, R280). -/
def digestBad (b : Bytes) (op alg : Nat) : List Nat :=
  let n := le b 40 2
  let cmp := op == 0x0201 || op == 0x0203
  let ok := if cmp then 4 ≤ n && n ≤ (if isShake alg then 512 else hashLen alg)
    else if isShake alg then 1 ≤ n else n == hashLen alg
  opndBad b 16 (le b 24 4) (some 28) ++ nonZero b 30 2 ++ highAddr b 32 ++ badIf (le b 32 8 == 0) 32
    ++ badIf (!ok) 40 ++ nonZero b 42 22

/-- HASH codes permitted for a scheme (R307). -/
def hashOk (alg hash : Nat) (pre : Bool) : Bool :=
  match alg with
  | 0x40 | 0x41 => hash ∈ [0x31, 0x32, 0x33, 0x38, 0x39, 0x3A]
  | 0x44 | 0x45 => hash ∈ [0x31, 0x32, 0x33]
  | 0x42 => hash == 0 && !pre
  | _ => if pre then hash ∈ [0x31, 0x32, 0x33, 0x38, 0x39, 0x3A, 0x3C, 0x3D] else hash == 0

/-- Key types of R210. -/
def keyTypes : List Nat :=
  [0x01, 0x02, 0x03, 0x04, 0x05, 0x10, 0x11, 0x12, 0x13, 0x14, 0x15, 0x18, 0x19, 0x1A, 0x20, 0x21, 0x22, 0x28, 0x29, 0x2A]

/-- EC_POINT permits this ALG with this OPSPEC (R315). -/
def ecOk (alg sp : Nat) : Bool :=
  match sp with
  | 1 | 2 | 4 => alg == 0x58 || alg == 0x59
  | 3 => alg ∈ [0x58, 0x59, 0x5A]
  | _ => false

/-- Field bytes of the curve of an ALG. -/
def fieldLen (alg : Nat) : Nat := if alg = 0x59 ∨ alg = 0x41 then 48 else 32

/-- Lengths that an input operand of EC_POINT must have: A, then B (R315). -/
def ecLens (alg sp : Nat) : Nat × Nat :=
  match sp with
  | 2 => (pubLen alg, pubLen alg)
  | 3 => (pubLen alg, fieldLen alg)
  | 4 => (fieldLen alg + 1, 0)
  | _ => (pubLen alg, 0)

/-- RSA public key length is k + 4 for k of 256 to 512 (R306). -/
def rsaPubOk (n : Nat) : Bool := 260 ≤ n && n ≤ 516

/-- OPSPEC bits that are Res0 (R208, R260), as a mask. -/
def opspecRes0 : Nat → Nat
  | 0x0300 => 0xFF00
  | 0x0304 => 0x00F0
  | 0x0400 | 0x0401 => 0xFE00
  | 0x0406 => 0xFF00
  | 0x0500 => 0xFFFE
  | 0x0600 | 0x0601 | 0x0603 => 0x00FE
  | 0x0602 => 0xFFFE
  | _ => 0xFFFF

/-- Step 2 for the key, public-key and RANDOM bodies (R207, R208, R306, R307). (DEDUCED, log entry 11.) -/
def operandBad (b : Bytes) (op alg sp : Nat) (tc : Bool) : List Nat :=
  let a := le b 24 4
  let noList := nonZero b 28 4
  let noC := absent b 48 56 4
  let noParam := nonZero b 44 4
  let outB := highAddr b 32 ++ badIf (le b 32 8 == 0 || le b 40 4 == 0) 32
  let outD := highAddr b 64 ++ badIf (le b 64 8 == 0 || le b 72 4 == 0) 64
  let c := opndBad b 48 (le b 56 4) none
  let res2 := nonZero b 60 4
  let res3 := nonZero b 76 20
  let lenIs (off n : Nat) : List Nat := badIf (le b off 4 != n) off
  match op with
  | 0x0300 => absent b 16 24 4 ++ noList ++ badIf (!keyTypes.contains (sp % 256)) 14
  | 0x0301 => opndBad b 16 a none ++ noList ++ badIf (decide (a < 56)) 24
  | 0x0302 =>
    noList ++ outB ++ badIf (decide (9 < byteAt b 44)) 44 ++ badIf (byteAt b 45 / 2 != 0) 45 ++ nonZero b 46 2 ++ noC ++ res2
  | 0x0303 | 0x0304 => absent b 16 24 4 ++ noList
  | 0x0305 => opndBad b 16 a none ++ noList ++ lenIs 24 (pubLen alg)
  | 0x0402 => absent b 16 24 4 ++ noList ++ outB ++ noParam ++ noC ++ res2
  | 0x0403 => opndBad b 16 a none ++ noList ++ lenIs 24 (pubLen alg) ++ outB ++ noParam ++ noC ++ res2
  | 0x0404 => opndBad b 16 a none ++ noList ++ lenIs 24 (ctLen alg)
  | 0x0405 =>
    opndBad b 16 a none ++ noList ++ badIf (a == 0) 24 ++ opndBad b 32 (le b 40 4) none ++ badIf (le b 40 4 == 0) 40
      ++ noParam ++ c ++ badIf (le b 56 4 == 0) 56 ++ res2 ++ outD ++ res3
  | 0x0406 =>
    badIf (!ecOk alg (sp % 256)) (if sp % 256 = 0 ∨ 4 < sp % 256 then 14 else 12)
      ++ opndBad b 16 a none ++ noList ++ lenIs 24 (ecLens alg (sp % 256)).1
      ++ opndBad b 32 (le b 40 4) none ++ lenIs 40 (ecLens alg (sp % 256)).2 ++ noParam ++ noC ++ res2
      ++ (if sp % 256 = 1 then absent b 64 72 4 else outD) ++ res3
  | 0x0500 =>
    opndBad b 16 a (some 28) ++ nonZero b 30 2 ++ badIf (a == 0) 24 ++ badIf (tc && bit sp 0) 14
  | _ =>
    -- PK_SIGN and PK_VERIFY
    let pre := bit sp 8
    let hash := sp % 256
    let ver := op == 0x0401
    let rsa := alg == 0x44 || alg == 0x45
    opndBad b 16 a (some 28) ++ nonZero b 30 2
      ++ badIf (!hashOk alg hash pre) (if pre && alg == 0x42 then 15 else 14)
      ++ badIf (pre && hashOk alg hash pre && a != hashLen hash) 24
      ++ noParam ++ c ++ res2 ++ badIf (!(alg ∈ [0x48, 0x49, 0x4A]) && le b 56 4 != 0) 56
      ++ (if ver then
            opndBad b 32 (le b 40 4) none ++ opndBad b 64 (le b 72 4) none ++ res3
              ++ (if rsa then badIf (!rsaPubOk (le b 72 4)) 72 ++ badIf (le b 40 4 + 4 != le b 72 4) 40
                  else lenIs 40 (sigLen alg) ++ lenIs 72 (pubLen alg))
          else outB)

/-- Padding bytes of an ESP_OUT trailer (R265 step 4). -/
def espPad (len padLen : Nat) : Nat := (4 - (len + 2) % 4) % 4 + padLen

/-- Step 2 for the protocol body (R211, R260, R261, R265, R266). (DESIGN CHOICE, log entry 51.) -/
def protoBad (b : Bytes) (op sp : Nat) : List Nat :=
  let tls := op == 0x0600 || op == 0x0601
  let out := op == 0x0601 || op == 0x0603
  let len := le b 24 4
  let pad := le b 62 2
  opndBad b 16 len (some 28) ++ highAddr b 32 ++ badIf (le b 32 8 == 0) 32 ++ badIf (decide (1024 < le b 30 2)) 30
    ++ badIf (if le b 30 2 = 0 then !(1 ≤ le b 76 4 && le b 76 4 ≤ 0xFFFFFF) else le b 76 4 != 0) 76
    ++ (if out then highAddr b 40 ++ nonZero b 48 8 else nonZero b 40 8)
    ++ (if tls then nonZero b 56 4 else nonZero b 64 12)
    ++ badIf (!(if tls then byteAt b 60 == 16 else byteAt b 60 == 12 || byteAt b 60 == 16)) 60
    ++ badIf (if op = 0x0601 then !(21 ≤ byteAt b 61 && byteAt b 61 ≤ 23) else byteAt b 61 != 0) 61
    ++ (if out then [] else nonZero b 62 2)
    ++ badIf (op == 0x0603 && (pad % 4 != 0 || decide (255 < espPad len pad))) 62
    ++ badIf (tls && !bit sp 0 && sp / 256 != 0) 15
    ++ (if op == 0x0602 && !bit sp 0 then nonZero b 52 4 else [])
    ++ nonZero b 80 16

/-- Step 2 for the path descriptor at d0 (R103, R195). -/
def descBad (b : Bytes) (d0 : Nat) (prev : Bool) : List Nat :=
  let root := byteAt b d0
  let depth := byteAt b (d0 + 1)
  let modes := le b (d0 + 2) 2
  let wrong (i : Nat) : Bool := let m := bits modes (2 * i + 1) (2 * i); if i < depth then m == 3 else m != 0
  let parent := le b (d0 + 12) 4
  badIf (!(root ≤ 9 || root == 0xFF) || (prev && root != 0xFF)) d0
    ++ badIf (!(1 ≤ depth && depth ≤ 8)) (d0 + 1)
    ++ badIf ((List.range 4).any wrong) (d0 + 2) ++ badIf ((List.range 4).any fun i => wrong (i + 4)) (d0 + 3)
    ++ badIf (decide (2 < byteAt b (d0 + 8))) (d0 + 8)
    ++ badIf (if byteAt b (d0 + 8) = 2 then !(1 ≤ byteAt b (d0 + 9) && byteAt b (d0 + 9) ≤ 64) else byteAt b (d0 + 9) != 0) (d0 + 9)
    ++ badIf (!(byteAt b (d0 + 10) ∈ [16, 24, 32])) (d0 + 10) ++ nonZero b (d0 + 11) 1
    ++ badIf (if prev || root != 0xFF then parent != 0 else parent == 0) (d0 + 12)
    ++ badIf (decide (2 ≤ byteAt b (d0 + 15))) (d0 + 15)
    ++ nonZero b (d0 + 20) 12

/-- Flags and KEY against the opcode's way of naming its key (R193, R195, R198, R205). (DESIGN CHOICE, log entry 51.) -/
def keyBad (b : Bytes) (op : Nat) (u : KeyUse) : List Nat :=
  let opf := le b 12 4
  let key := le b 8 4 != 0
  let path := bit opf 8
  let prev := bit opf 11
  let ok := match u with
    | .noKey => !key && !path && !prev
    | .required => flag key + flag path + flag prev == 1
    | .derive => path && !key
    | .wrap | .handlePrev => !path && flag key + flag prev == 1
    | .handleOnly => key && !path && !prev
  let held := bit opf 9 || bit opf 10
  badIf (!ok) (if key then 8 else 13) ++ badIf (decide (2 ≤ byteAt b 11)) 11 ++ badIf (byteAt b 13 / 16 != 0) 13
    ++ badIf (held && (op != 0x0101 || !bit opf 9)) 13

/-- Units the entry must have: the body, and with KEY_PATH 1 + DEPTH (R194 step 2, R195). -/
def wantUnits (b : Bytes) (body : Nat) : Nat := if bit (le b 12 4) 8 then body + 1 + byteAt b (32 * body + 1) else body

/-- Step 2 of R194: every offending offset. (DEDUCED, log entry 24.) -/
def formatBad (b : Bytes) (tc : Bool) : List Nat :=
  let op := le b 2 2
  let opf := le b 12 4
  let alg := opf % 256
  let sp := opf / 65536
  match opInfo op with
  | none => []
  | some (body, lay, use) =>
    badIf (byteAt b 0 / 16 != 0) 0 ++
    if op = 0x0001 then nonZero b 8 8
    else
      badIf (byteAt b 1 != wantUnits b body) 1 ++ keyBad b op use
        ++ badIf ((sp % 256) &&& (opspecRes0 op % 256) != 0) 14 ++ badIf ((sp / 256) &&& (opspecRes0 op / 256) != 0) 15
        ++ (if bit opf 8 ∧ b.length ≥ 32 * body + 32 then descBad b (32 * body) (bit opf 11) else [])
        ++ match lay with
          | .plain => []
          | .sym => symBad b op alg
          | .digest => digestBad b op alg
          | .operand => operandBad b op alg sp tc
          | .proto => protoBad b op sp

/-! ## Steps 3 and 4 -/

/-- Step 3 of R194: list addresses, and the CBC and XTS length rules (R204). -/
def alignBad (b : Bytes) : List Nat :=
  let op := le b 2 2
  let alg := byteAt b 12
  let dst := match opInfo op with
    | some (_, .sym, _) | some (_, .proto, _) => badIf (le b 30 2 != 0 && le b 32 8 % 16 != 0) 32
    | _ => []
  let src := match opInfo op with
    | some (_, .plain, _) | none => []
    | some _ => if op = 0x0302 then [] else badIf (le b 28 2 != 0 && le b 16 8 % 16 != 0) 16
  let len := badIf ((op == 0x0110 || op == 0x0111) &&
    ((alg == 0x11 && le b 24 4 % 16 != 0) || (alg == 0x12 && decide (le b 24 4 < 16)))) 24
  src ++ dst ++ len

/-- Output bytes that the record-layer chains need at least (R261, R262, R265, R266). -/
def protoNeed (b : Bytes) : Nat :=
  let len := le b 24 4
  match le b 2 2 with
  | 0x0600 => len - 21
  | 0x0601 => 5 + len + 1 + le b 62 2 + 16
  | 0x0602 => len - 17 - byteAt b 60
  | _ => 16 + len + espPad len (le b 62 2) + 2 + byteAt b 60

/-- Step 4 of R194: the RESULT of a LENGTH_LIMIT, the required capacity or 0; none where every length is in its limits
(R205, R206, R208, R211, R227, R244, R261). (DEDUCED, log entry 24.) -/
def overLimit (b : Bytes) (tc : Bool) : Option Nat :=
  let op := le b 2 2
  let alg := byteAt b 12
  let len := le b 24 4
  let sp := le b 12 4 / 65536
  match opInfo op with
  | some (_, .sym, _) =>
    if 0xFFFFFF < len ∨ (tc ∧ 9216 < len + le b 48 2) ∨ (op = 0x0101 ∧ 65536 < len ∧ bit (le b 12 4) 9 = false)
        ∨ (alg = 0x02 ∧ 2 ^ (8 * (15 - byteAt b 51)) ≤ len) then some 0 else none
  | some (_, .digest, _) => if 0xFFFFFF < len ∨ (tc ∧ 9216 < len) ∨ 512 < le b 40 2 then some 0 else none
  | some (_, .operand, _) =>
    match op with
    | 0x0301 => if 1600 < len then some 0 else none
    | 0x0400 | 0x0401 =>
      if 0xFFFFFF < len ∨ (tc ∧ 9216 < len) ∨ 255 < le b 56 4 then some 0
      else if op = 0x0400 ∧ alg ≠ 0x44 ∧ le b 40 4 < sigLen alg then some (sigLen alg) else none
    | 0x0402 => if le b 40 4 < pubLen alg then some (pubLen alg) else none
    | 0x0403 => if le b 40 4 < ctLen alg then some (ctLen alg) else none
    | 0x0405 =>
      if 512 < len ∨ 512 < le b 40 4 ∨ 512 < le b 56 4 then some 0
      else if le b 72 4 < le b 56 4 then some (le b 56 4) else none
    | 0x0406 => if sp % 256 ≠ 1 ∧ le b 72 4 < pubLen alg then some (pubLen alg) else none
    | 0x0500 => if 65536 < len ∨ (tc ∧ 256 < len) then some 0 else none
    | _ => none
  | some (_, .proto, _) =>
    let tls := op == 0x0600 || op == 0x0601
    if (if tls then 65535 else 65536) < len ∨ (tc ∧ 9216 < len) then some 0
    else if op = 0x0601 ∧ (255 < le b 62 2 ∨ 16385 < len + 1 + le b 62 2) then some 0
    else if le b 30 2 = 0 ∧ le b 76 4 < protoNeed b then some (protoNeed b)
    else none
  | _ => none

/-- Steps 1 to 4 of R194 and the engine rule of R227; none where the entry passes. `kinds` tells which kinds of engine
a TC instance reserved. (DEDUCED, log entry 24.) -/
def entryCheck (b : Bytes) (tc : Bool) (kinds : Option EngineKind → Bool) : Option (Status × Nat) :=
  let op := le b 2 2
  if (opInfo op).isNone || !(opAlgs op).contains (byteAt b 12) || (tc && !kinds (engineOf op)) then
    some (.badOpcode, 0)
  else
    match (formatBad b tc).min? with
    | some o => some (.malformedEntry, location 1 o)
    | none =>
      match (alignBad b).min? with
      | some o => some (.alignment, location 1 o)
      | none => (overLimit b tc).map fun n => (.lengthLimit, n)

/-! ## Fragment lists (R199 to R201) -/

/-- What a list's check ends with. -/
inductive ListEnd where
  | ok (l : List Frag)
  | malformed (off : Nat)
  | mismatch (sum : Nat)
  | limit
  deriving DecidableEq, Repr

/-- One list entry; the offset of its first offending byte, and whether only its length passes the limit. -/
def parseFrag (e : Bytes) (dest : Bool) : Frag × List Nat × Bool :=
  let addr := le e 0 8
  let disc := bit (le e 12 4) 0
  (⟨addr, le e 8 4, disc⟩,
   highAddr e 0 ++ badIf ((disc && (!dest || addr != 0)) || (!disc && addr == 0)) (if disc && !dest then 12 else 0)
     ++ badIf (le e 8 4 == 0) 8
     ++ (if byteAt e 12 / 2 ≠ 0 then [12] else nonZero e 13 3), decide (16777216 < le e 8 4))

/-- R201: every entry checked, then the sum. `total` is the declared total; none where the list only gives a capacity. (DEDUCED, log entry 11.) -/
def checkList (data : Bytes) (dest : Bool) (total : Option Nat) : ListEnd :=
  let es := (blocks 16 data).map fun e => parseFrag e dest
  let bad := (es.zipIdx.map fun p => p.1.2.1.map (16 * p.2 + ·)).flatten
  let sum := (es.map fun e => e.1.len).sum
  match bad.min? with
  | some o => .malformed o
  | none =>
    if es.any (·.2.2) then .limit
    else
      match total with
      | some t => if sum = t then .ok (es.map (·.1)) else .mismatch sum
      | none => .ok (es.map (·.1))

/-- RESULT of LENGTH_MISMATCH (R218). -/
def sumResult (n : Nat) : Nat := if n < 2 ^ 32 then n else 0xFFFFFFFF

/-- The part of a list of fragments that holds bytes off to off + n of the operand, in order; each piece carries its
offset in the operand, and no piece crosses a 4 KiB boundary (R333). -/
def spanAux : List Frag → Nat → Nat → Nat → List (Nat × Frag)
  | [], _, _, _ => []
  | f :: rest, pos, off, n =>
    if n = 0 then []
    else if pos + f.len ≤ off then spanAux rest (pos + f.len) off n
    else
      let skip := off - pos
      let take := min n (f.len - skip)
      let here := if f.discard then [(off, (⟨0, take, true⟩ : Frag))]
        else (split4k (f.addr + skip) take).map fun a => (off + (a.1 - (f.addr + skip)), ⟨a.1, a.2, false⟩)
      here ++ spanAux rest (pos + f.len) (off + take) (n - take)

def span (l : List Frag) (off n : Nat) : List (Nat × Frag) := spanAux l 0 off n

/-- Bytes of the first n of an operand that fall in DISCARD fragments. -/
def discarded (l : List Frag) (n : Nat) : Nat := (((span l 0 n).filter (·.2.discard)).map (·.2.len)).sum

end Sys2Proof.Machine
end

