-- ==== Sys2Proof/Machine/Resolve.lean ====
section
/-! DEFINITION. The key tree and its slots: roots (R95, R97, R99), the KDF (R100, R101), labels and usage codes (R102),
handles (R110, R111), slot runs (R112, R311), invocation values (R106, R107), and how a job resolves its key (R195). -/

namespace Sys2Proof.Machine

/-! ## Roots -/

/-- The TEST root (R97). -/
def testRoot : Bytes := digest 0x31 32 (ascii "Jexen SJ6400 TEST root")

/-- Root c of R99, as the vault holds it. -/
def Vault.root (v : Vault) (c : Nat) : Option Bytes :=
  if c = 0 then v.dus
  else if h : c - 1 < 9 then v.roots[c - 1] else none

/-- Roots usable for derivation in a life-cycle state (R95). -/
def Lc.usable (l : Lc) (c : Nat) : Bool :=
  match l with
  | .field => c ≤ 9
  | .provision | .ret => c == 0
  | .blank | .scrap => false

/-- The value a derivation takes for root c; none where it is absent or not usable (R95, R97, R105). -/
def State.rootKey (s : State) (c : Nat) : Option Bytes :=
  if s.life.fuse.usable c then (s.vault.root c).map fun k => if s.life.debug then testRoot else k else none

/-! ## The KDF -/

/-- R100: the child key of a parent, from a 32-byte label and an 80-byte context. -/
def kdf (parent label ctx : Bytes) : Bytes :=
  let prf (i : Nat) : Bytes := cmac parent (toBe 4 i ++ padTo 32 label ++ [0#8] ++ padTo 80 ctx ++ toBe 4 256)
  prf 1 ++ prf 2

/-- R101: the context of a level. `leaf` carries CSRC, CNUM, epoch and serial. (DESIGN CHOICE, log entry 48.) -/
def kdfContext (mode level svn : Nat) (leaf : Nat × Nat × Nat × Nat) (measure : Bytes) : Bytes :=
  [BitVec.ofNat 8 mode, BitVec.ofNat 8 level, BitVec.ofNat 8 leaf.1, BitVec.ofNat 8 leaf.2.1]
    ++ toLe 4 (if mode = 1 then svn else 0) ++ toLe 8 leaf.2.2.1 ++ toLe 8 leaf.2.2.2 ++ zeros 8
    ++ (if mode = 2 then padTo 48 measure else zeros 48)

/-- SHA-384 of FW_MEASURE followed by HOST_MEASURE (R101). -/
def State.measure (s : State) : Bytes := digest 0x32 48 (s.life.fwMeasure ++ s.life.hostMeasure.getD (zeros 48))

/-- A leaf at depth 1 of a root, with an internal label, in SVN mode at svn or unbound (R119). -/
def leafKey (root label : Bytes) (svn : Option Nat) : Bytes :=
  kdf root label (kdfContext (if svn.isSome then 1 else 0) 1 (svn.getD 0) (0, 0, 0, 0) [])

/-- A label of internal usage code 0x8000_0000 + k, followed by free bytes (R102). -/
def internalLabel (k : Nat) (free : Bytes) : Bytes := padTo 32 (toLe 4 (2 ^ 31 + k) ++ free)

/-! ## Path descriptors (R103) -/

def pdRoot (d : Bytes) : Nat := byteAt d 0
def pdDepth (d : Bytes) : Nat := byteAt d 1
def pdMode (d : Bytes) (i : Nat) : Nat := bits (le d 2 2) (2 * i + 1) (2 * i)
def pdSvn (d : Bytes) : Nat := le d 4 4
def pdCsrc (d : Bytes) : Nat := byteAt d 8
def pdCnum (d : Bytes) : Nat := byteAt d 9
def pdKlen (d : Bytes) : Nat := byteAt d 10
def pdParent (d : Bytes) : Nat := le d 12 4
def pdFixed (d : Bytes) : Bytes := slice d 16 4
def pdLabel (d : Bytes) (i : Nat) : Bytes := slice d (32 * (i + 1)) 32
/-- Usage code of the leaf label. -/
def pdUsage (d : Bytes) : Nat := le (pdLabel d (pdDepth d - 1)) 0 4

/-- The keys along a path from a parent at depth d0: one per level, the leaf last (R100, R101). -/
def pathKeys (s : State) (d : Bytes) (parent : Bytes) (d0 : Nat) : List Bytes :=
  let step (acc : Bytes × List Bytes) (i : Nat) : Bytes × List Bytes :=
    let leaf := if i + 1 = pdDepth d then
        (pdCsrc d, if pdCsrc d = 2 then pdCnum d else 0, if pdCsrc d = 1 then s.vault.bootEpoch else 0,
          if pdCsrc d = 1 then s.keys.serial else 0)
      else (0, 0, 0, 0)
    let k := kdf acc.1 (pdLabel d i) (kdfContext (pdMode d i) (d0 + i + 1) (pdSvn d) leaf s.measure)
    (k, acc.2 ++ [k])
  ((List.range (pdDepth d)).foldl step (parent, [])).2

/-- What names an intermediate node: the labels to level i and the binding inputs they use (R104). (DEDUCED, log entry 26.) -/
def nodePath (s : State) (d : Bytes) (i : Nat) : Bytes :=
  ((List.range (i + 1)).map fun k =>
    pdLabel d k ++ [BitVec.ofNat 8 (pdMode d k)] ++ (if pdMode d k = 1 then toLe 4 (pdSvn d) else [])
      ++ (if pdMode d k = 2 then s.measure else [])).flatten

/-! ## Usage codes, types, lengths (R102, R196, R210) -/

/-- Software usage codes of R102. -/
def usageCodes : List Nat := [0x01, 0x10, 0x11, 0x12, 0x13, 0x30, 0x31, 0x40, 0x41, 0x42]

/-- The usage code that permits an opcode; none where the opcode needs no particular one (R102). (DEDUCED, log entry 13.) -/
def usageFor : Nat → Option Nat
  | 0x0100 | 0x0101 | 0x0600 | 0x0601 | 0x0602 | 0x0603 => some 0x10
  | 0x0110 | 0x0111 => some 0x11
  | 0x0120 | 0x0121 => some 0x12
  | 0x0202 | 0x0203 => some 0x13
  | 0x0304 => some 0x30
  | 0x0305 => some 0x42
  | 0x0400 => some 0x40
  | 0x0404 => some 0x41
  | _ => none

/-- Key types that match an ALG (R196, R210). -/
def typesFor (alg : Nat) : List Nat :=
  match alg with
  | 0x01 | 0x02 | 0x10 | 0x11 | 0x20 | 0x21 => [0x01]
  | 0x03 => [0x02]
  | 0x12 => [0x05]
  | 0x40 => [0x10]
  | 0x41 => [0x11]
  | 0x42 => [0x12]
  | 0x44 => [0x18, 0x19, 0x1A]
  | 0x48 => [0x28]
  | 0x49 => [0x29]
  | 0x4A => [0x2A]
  | 0x50 => [0x20]
  | 0x51 => [0x21]
  | 0x52 => [0x22]
  | 0x58 => [0x13]
  | 0x59 => [0x14]
  | 0x5A => [0x15]
  | _ => if 0x30 ≤ alg ∧ alg ≤ 0x3A then [0x03] else []

/-- Key bytes a type admits (R210). -/
def keyBytesOk (t n : Nat) : Bool :=
  match t with
  | 0x01 => n ∈ [16, 24, 32]
  | 0x03 => 32 ≤ n && n ≤ 128
  | 0x05 => n == 32 || n == 64
  | 0x11 | 0x14 => n == 48
  | 0x18 => n == 640
  | 0x19 => n == 960
  | 0x1A => n == 1280
  | 0x20 | 0x21 | 0x22 => n == 64
  | _ => n == 32

/-- Types KEY_DERIVE may produce, with the key length it may have (R210). -/
def derivable (t n : Nat) : Bool :=
  match t with
  | 0x01 => n ∈ [16, 24, 32]
  | 0x02 | 0x03 | 0x04 | 0x05 => n == 32
  | _ => false

/-! ## Slots -/

/-- A slot's key: the exclusive-or of its shares (R113). -/
def Slot.key (x : Slot) : Bytes := xorB x.shareA x.shareB

/-- A mask of n bytes from the mask reserve (R326; DESIGN CHOICE, log entry 43). -/
def State.takeMask (s : State) (n : Nat) : Bytes × State :=
  ((List.range n).map (Config.maskByte s.sentry.maskReserve s.sentry.maskDraws),
    s.updSentry fun x => { x with maskDraws := x.maskDraws + 1 })

/-- Two shares of a key, the first a fresh mask (R113). -/
def State.splitKey (s : State) (k : Bytes) : (Bytes × Bytes) × State :=
  let r := s.takeMask k.length
  ((r.1, xorB r.1 k), r.2)

/-- New shares for one slot, its key the same (R113). -/
def State.remask (s : State) (i : Nat) : State :=
  match s.keys.slot i with
  | some x =>
    let r := s.splitKey x.key
    r.2.updSlot i fun y => { y with shareA := r.1.1, shareB := r.1.2 }
  | none => s

/-- A slot's key is loaded into an engine, and its shares are masked again (R113). -/
def State.loadKey (s : State) (k : Option Nat) : State :=
  match k with
  | some i => s.remask i
  | none => s

/-- Slots that a key of n bytes needs (R311). -/
def runLen (n : Nat) : Nat := max 1 (ceilDiv n 32)

/-- Positions at to at + run hold no slot and no reserved run (R311, R312). -/
def State.runFree (s : State) (at_ run : Nat) : Bool :=
  (s.keys.slots.all fun p => p.1 + p.2.run ≤ at_ || at_ + run ≤ p.1)
    && s.jobs.all fun j => j.run == 0 || j.runAt + j.run ≤ at_ || at_ + run ≤ j.runAt

/-- First slot number and end of an instance's range (R112, R311). -/
def Inst.slotLo (i : Inst) : Nat := i.live.slotBase
def Inst.slotHi (i : Inst) : Nat := min 8192 (i.live.slotBase + i.live.slotQuota)

/-- The lowest position of instance n where a run is free. -/
def State.freeRun (s : State) (n : Fin 128) (run : Nat) : Option Nat :=
  ((List.range ((s.inst n).slotHi + 1 - run - (s.inst n).slotLo)).map ((s.inst n).slotLo + ·)).find? fun a =>
    a + run ≤ (s.inst n).slotHi && s.runFree a run

/-- A job that has not ended names slot i (R112). -/
def State.named (s : State) (i : Nat) : Bool := s.jobs.any (·.key == some i)

/-- Transient slots of n that no job names. -/
def State.evictable (s : State) (n : Fin 128) : List (Nat × Slot) :=
  s.keys.slots.filter fun p => p.2.owner == n && !p.2.pinned && !s.named p.1

/-- The least recently used of them. (DESIGN CHOICE, log entry 8.) -/
def leastUsed : List (Nat × Slot) → Option (Nat × Slot)
  | [] => none
  | p :: rest =>
    match leastUsed rest with
    | some q => if q.2.used_at < p.2.used_at then some q else some p
    | none => some p

/-- Evict least-recently-used transient slots until the run finds a position (R112, R311). The first argument bounds
the recursion. -/
def makeRoom : Nat → State → Fin 128 → Nat → Option (Nat × State)
  | 0, s, n, run => (s.freeRun n run).map fun a => (a, s)
  | k + 1, s, n, run =>
    match s.freeRun n run with
    | some a => some (a, s)
    | none =>
      match leastUsed (s.evictable n) with
      | some p => makeRoom k ((s.emptySlot p.1 5).count 0x2014 3) n run
      | none => none

/-- Where a run of the instance goes, its room made; none where every position is blocked (R112, R311). -/
def State.place (s : State) (n : Fin 128) (run : Nat) : Option (Nat × State) := makeRoom 8193 s n run

/-- Advance the order of slot uses (R112). (DESIGN CHOICE, log entry 8.) -/
def State.touch (s : State) (i : Nat) : State :=
  (s.updKeys fun k => { k with clock := k.clock + 1 }).updSlot i fun x => { x with used_at := s.keys.clock }

/-- Attributes of a KDF slot from KEY_AGREE, KEM_ENCAPS or KEM_DECAPS, and of a PK_KEYGEN slot (R209). -/
def NewKey.plain (key : Bytes) (usage ktype : Nat) : NewKey :=
  ⟨key, usage, ktype, 0, 0, zeros 4, true, 0, 0, none, [], false, zeros 8⟩

/-- The counter at vault number n, 1 to 64. -/
def Vault.counter (v : Vault) (n : Nat) : Nat := if h : 1 ≤ n ∧ n ≤ 64 then v.counters[n - 1].toNat else 0

def State.setCounter (s : State) (n v : Nat) : State :=
  s.updVault fun x => if h : 1 ≤ n ∧ n ≤ 64 then { x with counters := x.counters.set (n - 1) (BitVec.ofNat 64 v) } else x

/-- The last value a counter reaches: all-ones, never used (R107). -/
def allOnes64 : Nat := 2 ^ 64 - 1

/-- R107: reserve 1,024 values of a vault counter, cut short below all-ones; the slot's next value and the first
beyond. (DEDUCED, log entry 12.) -/
def State.reserve (s : State) (n : Nat) : (Nat × Nat) × State :=
  let v := s.vault.counter n
  let e := min (v + 1024) allOnes64
  ((v, e), s.setCounter n e)

/-- The slot that holds a new key: its shares, its instance's hand, its TEST mark (R98, R111). -/
def State.slotFor (s : State) (n : Fin 128) (k : NewKey) (shares : Bytes × Bytes) : Slot :=
  { owner := n, hand := (s.inst n).hand, usage := k.usage, ktype := k.ktype, csrc := k.csrc, cnum := k.cnum
    fixed := k.fixed, shareA := shares.1, shareB := shares.2, run := runLen k.key.length, pinned := k.pinned, depth := k.depth
    limit := k.limit, used := 0, next := 0, stop := if k.csrc = 1 then allOnes64 else 0, first := none, last := none
    tlsSpent := false, root := k.root, test := s.life.debug, sealedOnly := k.sealedOnly || k.usage == 0x30
    ownerLabel := k.label, path := k.path, used_at := s.keys.clock, evicting := none, movedIn := false }

/-- A new key before it has a slot (R194). -/
def State.unplacedKey (s : State) (n : Fin 128) (k : NewKey) : Slot := s.slotFor n k (zeros k.key.length, k.key)

/-- Install a key at a position with fresh shares (R113). A pinned slot on a vault counter reserves at once (R107; DEDUCED, log
entry 12). -/
def State.install (s : State) (n : Fin 128) (at_ : Nat) (k : NewKey) : State :=
  let r := s.splitKey k.key
  let x := r.2.slotFor n k r.1
  let v := if k.csrc = 2 ∧ k.pinned then r.2.reserve k.cnum else ((x.next, x.stop), r.2)
  v.2.updKeys fun c =>
    { c with slots := c.slots ++ [(at_, { x with next := v.1.1, stop := v.1.2 })], clock := c.clock + 1 }

/-! ## Handles -/

/-- R111: the slot a handle names, for a job or a write of instance n. -/
def State.handleSlot (s : State) (n : Fin 128) (h : Nat) : Except Status (Nat × Slot) :=
  let i := h % 8192
  if h / 8192 % 4096 ≠ s.keys.gen i then .error .keyStale
  else
    match s.keys.slot i with
    | none => .error .keyStale
    | some x =>
      if x.owner ≠ n then .error .keyPolicy
      else if x.hand ≠ (s.inst n).hand ∨ x.movedIn then .error .keyStale
      else .ok (i, x)

/-! ## Checks of step 5 (R194) -/

/-- RESULT of a key status: the handle the entry or the chain gave, or 0 (R218). -/
def Job.keyResult (j : Job) : Nat :=
  if j.handle ≠ 0 then j.handle else if j.keyPrev then j.prev.getD 0 else 0

/-- Key lengths and values that the opcode's algorithm does not accept (R196, R244). -/
def keyRefused (op alg : Nat) (x : Slot) : Bool :=
  (op != 0x0304 && op != 0x0302 && op != 0x0303 && !(typesFor alg).contains x.ktype)
    || (alg == 0x12 && x.key.take (x.key.length / 2) == x.key.drop (x.key.length / 2))

/-- The opcode needs a counter source (R106, R260). -/
def needsSource (op alg : Nat) : Bool := (op == 0x0100 && alg == 0x01) || op == 0x0601 || op == 0x0603

/-- Usage, type, length and counter source of a slot against a job (R102, R106, R126, R196). -/
def Job.slotRefused (j : Job) (x : Slot) : Bool :=
  (match usageFor j.opcode with
    | some u => u != x.usage
    | none => false)
    || (x.sealedOnly && j.opcode != 0x0304 && j.opcode != 0x0303) || keyRefused j.opcode j.alg x
    || (needsSource j.opcode j.alg && x.csrc == 0)

/-- The slot that the chain's result names (R195). -/
def State.prevSlot (s : State) (j : Job) : Except Status (Nat × Slot) :=
  match j.prev with
  | some h => s.handleSlot j.inst h
  | none => .error .keyStale

/-- The path descriptor of a job's entry: after the body (R195). -/
def Job.desc (j : Job) : Bytes :=
  match opInfo j.opcode with
  | some (body, _, _) => j.raw.drop (32 * body)
  | none => []

/-- The parent slot of a path: its PARENT, or the chain result with KEY_PREV (R195). (DESIGN CHOICE, log entry 48.) -/
def State.pathParent (s : State) (j : Job) : Except Status (Option (Nat × Slot)) :=
  let d := j.desc
  if pdRoot d ≠ 0xFF then .ok none
  else
    let r := if j.keyPrev then s.prevSlot j else s.handleSlot j.inst (pdParent d)
    match r with
    | .ok p => if p.2.usage = 0x01 ∧ p.2.evicting.isNone then .ok (some p)
               else .error (if p.2.evicting.isSome then .keyStale else .keyPolicy)
    | .error e => .error e

/-- Key type an inline path takes from ALG, or KEY_DERIVE from OPSPEC (R196, R209). -/
def Job.pathType (j : Job) : Nat :=
  if j.opcode = 0x0300 then j.opspec % 256 else ((typesFor j.alg).head?).getD 0

/-- R102, R105, R108, R196: what refuses a path with KEY_POLICY. -/
def State.pathPolicy (s : State) (j : Job) : Bool :=
  let d := j.desc
  let derive := j.opcode == 0x0300
  let levels := List.range (pdDepth d)
  (levels.any fun i => !usageCodes.contains (le (pdLabel d i) 0 4))
    || (levels.any fun i => pdMode d i == 1 && decide (s.life.fwSvn < pdSvn d))
    || (pdCsrc d == 1 && !derive)
    || !derivable j.pathType (pdKlen d)
    || (!derive && ((match usageFor j.opcode with
          | some u => u != pdUsage d
          | none => false) || (needsSource j.opcode j.alg && pdCsrc d == 0)))

/-- R105: what makes a path's key not ready. -/
def State.pathNotReady (s : State) (j : Job) : Bool :=
  let d := j.desc
  (pdRoot d != 0xFF && (s.rootKey (pdRoot d)).isNone)
    || ((List.range (pdDepth d)).any fun i => pdMode d i == 2 && s.life.hostMeasure.isNone)

/-- How a job's key stands after the checks of step 5 that need no derivation. -/
inductive KeyEnd where
  | none                      -- the opcode takes no key
  | slot (i : Nat)            -- a slot holds it
  | derive                    -- the derivation unit is to resolve a path
  | fail (st : Status) (result : Nat)
  deriving DecidableEq, Repr

/-- A transient slot that already holds this path for this instance and type (R104, R112). (DEDUCED, log entry 26.) -/
def State.transient (s : State) (j : Job) : Option Nat :=
  (s.keys.slots.find? fun p => p.2.owner == j.inst && !p.2.pinned && p.2.path == j.desc && p.2.ktype == j.pathType
    && p.2.hand == (s.inst j.inst).hand && p.2.evicting.isNone).map (·.1)

/-- Step 5 of R194 for a handle or a chain result. -/
def State.handleKey (s : State) (j : Job) : KeyEnd :=
  let fail (st : Status) : KeyEnd := .fail st j.keyResult
  let r := if j.keyPrev then s.prevSlot j else s.handleSlot j.inst j.handle
  match r with
  | .error e => fail e
  | .ok (i, x) =>
    if x.evicting.isSome ∧ x.evicting ≠ some j.id then fail .keyStale
    else if j.slotRefused x then fail .keyPolicy
    else .slot i

/-- The depth rule of R103 with the parent's recorded depth: the offset of DEPTH where a path would pass depth 8 (R195). -/
def State.tooDeep (s : State) (j : Job) : Option Nat :=
  match opInfo j.opcode, s.pathParent j with
  | some (body, _, _), .ok (some p) => if j.keyPath && decide (8 < p.2.depth + pdDepth j.desc) then some (32 * body + 1) else none
  | _, _ => none

/-- Step 5 for a path (R103, R105, R108). (DESIGN CHOICE, log entry 51.) -/
def State.pathKey (s : State) (j : Job) : KeyEnd :=
  match s.pathParent j with
  | .error e => .fail e (if j.keyPrev then j.keyResult else 0)
  | .ok _ =>
    if s.pathPolicy j then .fail .keyPolicy 0
    else if s.pathNotReady j then .fail .keyNotReady 0
    else if j.opcode = 0x0300 then .derive
    else match s.transient j with
      | some i => .slot i
      | none => .derive

/-- Step 5 of R194 (R195). -/
def State.keyCheck (s : State) (j : Job) : KeyEnd :=
  match opInfo j.opcode with
  | some (_, _, .noKey) | none => .none
  | _ => if j.keyPath then s.pathKey j else s.handleKey j

/-! ## Resolution -/

/-- What the derivation unit forms: the leaf key with its slot attributes, and the state with its nodes and serial
(R104, R106, R209). -/
def State.derivePath (s : State) (j : Job) : Option (NewKey × State) :=
  let d := j.desc
  match s.pathParent j with
  | .error _ => none
  | .ok parent =>
    let start := match parent with
      | some p => some (p.2.key, p.2.depth, p.2.root)
      | none => (s.rootKey (pdRoot d)).map fun k => (k, 0, some (pdRoot d))
    match start with
    | none => none
    | some (pk, d0, root) =>
      let ks := pathKeys s d pk d0
      -- intermediate nodes are cached for paths from a root
      let inner := if parent.isSome then [] else (ks.dropLast.zipIdx.map fun p => (⟨pdRoot d, nodePath s d p.2, p.1⟩ : Node))
      let known := (inner.filter fun n => s.keys.nodes.contains n).length
      let s := s.updKeys fun k =>
        { k with nodes := (inner.reverse ++ k.nodes.filter fun n => !inner.contains n).take 64, serial := k.serial + 1 }
      let s := (s.countBy 0x2015 1 (pdDepth d - known)).countBy 0x2015 2 (flag (known != 0))
      some (⟨(ks.getLastD []).take (pdKlen d), pdUsage d, j.pathType, pdCsrc d, pdCnum d, pdFixed d, j.opcode == 0x0300,
        d0 + pdDepth d, 0, root, if j.opcode = 0x0300 then [] else d, false, zeros 8⟩, s)

/-! ## Usage counts and invocation values (step 7) -/

/-- Jobs that count a use of their slot (R102, R118, R248; DEDUCED, log entry 13). -/
def Job.usesKey (j : Job) : Bool := (usageFor j.opcode).isSome

/-- The slot whose key a job has resolved: in the key cache, or emptied with its root while the job runs (R112, R124). -/
def State.jobSlot (s : State) (j : Job) : Option Slot :=
  match j.goneKey with
  | some h => s.keys.gone.lookup h
  | none => j.key.bind s.keys.slot

/-- Its handle. -/
def State.jobHandle (s : State) (j : Job) : Nat := j.goneKey.getD ((j.key.map s.keys.handle).getD 0)

/-- Change it. -/
def State.updJobSlot (s : State) (j : Job) (f : Slot → Slot) : State :=
  match j.goneKey, j.key with
  | some h, _ => s.updKeys fun k => { k with gone := k.gone.map fun p => if p.1 = h then (p.1, f p.2) else p }
  | none, some i => s.updSlot i f
  | none, none => s

/-- The next invocation value of a slot, its reservation renewed where it is spent (R107). -/
def State.peekValue (s : State) (x : Slot) : Option Nat :=
  if x.next < x.stop then some x.next
  else if x.csrc = 2 ∧ s.vault.counter x.cnum < allOnes64 then some (s.vault.counter x.cnum)
  else none

/-- Take the value v that peekValue gave, and count the use. (DEDUCED, log entry 12.) -/
def State.takeValue (s : State) (j : Job) (x : Slot) (v : Nat) : State :=
  let r := if x.next < x.stop then ((x.next, x.stop), s) else s.reserve x.cnum
  r.2.updJobSlot j fun y =>
    { y with next := v + 1, stop := r.1.2, first := some (y.first.getD v), last := some v, used := y.used + 1 }

/-- Sequence number of TLS13_SEAL for value v (R263). -/
def Slot.seqOf (x : Slot) (v : Nat) : Nat := v - x.first.getD v

/-- Another job has drawn a value of the slot since its first record (R263). -/
def Slot.gap (x : Slot) (v : Nat) : Bool := x.last.isSome && x.last != some (v - 1)

/-- The value does not serve the opcode (R263 to R265). -/
def Job.valueSpent (j : Job) (x : Slot) (v : Nat) : Bool :=
  match j.opcode with
  | 0x0601 => x.tlsSpent || x.gap v || (bit j.opspec 0 && decide (2 ^ 48 ≤ x.seqOf v))
  | 0x0603 => !bit j.opspec 0 && decide (2 ^ 32 ≤ v + 1)
  | _ => false

/-- Step 7 of R194: the usage limit, then the invocation value. Answers the failure, or the state with the value
drawn and the use counted. (DEDUCED, log entry 13.) -/
def State.drawStep (s : State) (j : Job) : Except (Status × Nat × State) State :=
  match s.jobSlot j with
  | none => .ok s
  | some x =>
    if j.usesKey = false then .ok s
    else if x.limit ≠ 0 ∧ x.limit ≤ x.used then .error (.usageLimit, s.jobHandle j, s)
    else if needsSource j.opcode j.alg then
      match s.peekValue x with
      | none => .error (.nonceExhausted, s.jobHandle j, s)
      | some v =>
        if j.valueSpent x v then
          .error (.nonceExhausted, s.jobHandle j,
            if j.opcode = 0x0601 ∧ x.gap v then s.updJobSlot j fun y => { y with tlsSpent := true } else s)
        else
          let s := s.takeValue j x v
          .ok (s.updJob j.id fun k => { k with drawn := some v, keyCopy := s.jobSlot j })
    else .ok (s.updJobSlot j fun y => { y with used := y.used + 1 })

/-- A path's key takes its slot with step 7 (R112, R194): one that holds the path by now, or a new one. Answers the job that holds it;
none where no room is left. -/
def State.takeSlot (s : State) (j : Job) : Option (Job × State) :=
  match j.pend with
  | none => some (j, s)
  | some k =>
    let r : Option (Nat × State) := match s.transient j with
      | some i => some (i, s.touch i)
      | none => (s.place j.inst 1).map fun p => (p.1, p.2.install j.inst p.1 k)
    r.map fun p =>
      let j := { j with key := some p.1, keyCopy := p.2.keys.slot p.1, pend := none }
      (j, p.2.updJob j.id fun x => { x with key := j.key, keyCopy := j.keyCopy, pend := none })

end Sys2Proof.Machine
end

