-- ==== Sys2Proof/Machine/Random.lean ====
section
/-! DEFINITION. The random generator (R323 to R325): an SP 800-90A CTR_DRBG with AES-256 and the derivation function (PRESUMED, log
entry 44), its drawing and reseeding, and the loss of its noise sources. What the sources deliver is free (DESIGN CHOICE, log
entry 4). -/

namespace Sys2Proof.Machine

/-- Both sources are out of use, or the two datapaths have disagreed twice, which has the same effect (R325). -/
def Rng.out (r : Rng) : Bool := (!r.src[0] && !r.src[1]) || 2 ≤ r.disagreed

/-- The generator serves requests: seeded, and not in the both-sources-out state (R323, R325). -/
def Rng.serves (r : Rng) : Bool := r.seeded && !r.out

/-! ## CTR_DRBG (PRESUMED, log entry 44) -/

/-- n blocks of output from counter V on: AES of V + 1, V + 2 and so on. -/
def drbgBlocks (rks : List Bytes) (v : Bytes) (n : Nat) : Bytes :=
  ((List.range n).map fun i => encBlock rks (toBe 16 (ofBe v + 1 + i))).flatten

/-- CTR_DRBG_Update with 48 bytes of provided data, from counter V: the next Key and V. (PRESUMED, log entry 44.) -/
def drbgUpdate (rks : List Bytes) (v data : Bytes) : Bytes × Bytes :=
  let t := xorB (drbgBlocks rks v 3) data
  (t.take 32, t.drop 32)

/-- CBC-MAC of a padded string, as the derivation function's BCC. -/
def drbgBcc (rks : List Bytes) (b : Bytes) : Bytes := (blocks 16 b).foldl (fun c x => encBlock rks (xorB c x)) (zeros 16)

/-- Block_Cipher_df to 48 bytes. (PRESUMED, log entry 44.) -/
def drbgDf (input : Bytes) : Bytes :=
  let body := toBe 4 input.length ++ toBe 4 48 ++ input ++ [0x80#8]
  let body := body ++ zeros ((16 - body.length % 16) % 16)
  let rks := roundKeys ((List.range 32).map (BitVec.ofNat 8))
  let t := ((List.range 3).map fun i => drbgBcc rks (toBe 4 i ++ zeros 12 ++ body)).flatten
  let rks := roundKeys (t.take 32)
  let x1 := encBlock rks (t.drop 32)
  let x2 := encBlock rks x1
  x1 ++ x2 ++ encBlock rks x2

/-- Mix seed material into Key and V. -/
def Rng.mix (r : Rng) (input : Bytes) : Rng :=
  let u := drbgUpdate (roundKeys r.key) r.v (drbgDf input)
  { r with key := u.1, v := u.2, requests := 0 }

/-- Instantiation from 48 bytes of entropy, a nonce of 16 and the personalisation string (R323). (PRESUMED, log entry 44.) -/
def State.instantiate (s : State) : State :=
  let e := s.fresh 64
  e.2.updRng fun r => { { r with key := zeros 32, v := zeros 16 }.mix (e.1 ++ r.pers) with seeded := true, tcReserve := 4096 }

/-- Reseed from the sources in use (R323). (PRESUMED, log entry 44.) -/
def State.reseed (s : State) : State :=
  let e := s.fresh 48
  (e.2.updRng fun r => r.mix e.1).count 0x2016 2

/-- The reseed that 65,536 generate requests make due (R323). -/
def State.reseedDue (s : State) : State := if 65536 ≤ s.rng.requests then s.reseed else s

/-- The next n bytes of the generator, and its state past them. (PRESUMED, log entry 44.) -/
def Rng.generate (r : Rng) (n : Nat) : Bytes × Rng :=
  let rks := roundKeys r.key
  let k := ceilDiv n 16
  let u := drbgUpdate rks (toBe 16 (ofBe r.v + k)) (zeros 48)
  (padTo n (drbgBlocks rks r.v k), { r with key := u.1, v := u.2, requests := r.requests + 1 })

/-- Bytes the TC reserve holds after a draw of n (R224): TC draws take from it, and it is refilled before BULK output. -/
def reserveAfter (tc : Bool) (r n : Nat) : Nat := if tc then (if n ≤ r then r - n else 4096 - n) else 4096

/-- Draw n bytes for a consumer of a class (R224, R323). Where the generator does not serve and R325 names no failure for the consumer,
the bytes are free. (DESIGN CHOICE, log entry 4.) -/
def State.drawBytes (s : State) (tc : Bool) (n : Nat) : Bytes × State :=
  if s.rng.serves then
    let s := s.reseedDue
    let r := s.rng.generate n
    (r.1, (s.updRng fun g => { r.2 with tcReserve := reserveAfter tc g.tcReserve n }).countBy 0x2016 1 n)
  else s.fresh n

/-- RESEED: due after 65,536 generate requests or 100 ms, so it may come with any count (R323). -/
def execReseed (s : State) : Host.Outcome State Fault Refusal :=
  if s.rng.serves then .next s.reseed else .next s

/-- With both sources out, the DRBG state and the TC reserve are erased (R325). -/
def State.rngLost (s : State) : State :=
  if s.rng.out then
    ((s.updRng fun r => { r with seeded := false, key := zeros 32, v := zeros 16, tcReserve := 0, requests := 0 }).cause 11).logEvent
      0x0013 0xFF []
  else s

/-- R325: source k fails a continuous test and is out of use until the next die reset. -/
def State.sourceFails (s : State) (k : Fin 2) : State :=
  if s.rng.src[k] then
    let s := s.updRng fun r => { r with src := r.src.set k false }
    (((s.count 0x2016 3).cause 10).logEvent 0x0012 0xFF [BitVec.ofNat 8 k.val]).rngLost
  else s

/-- R325: the two datapaths disagree. The generator is instantiated anew from the sources; a second time since the die reset acts as
both sources out. -/
def State.datapathsDisagree (s : State) : State :=
  if s.rng.serves then
    let s := s.updRng fun r => { r with disagreed := r.disagreed + 1 }
    if s.rng.out then s.rngLost else s.instantiate
  else s

/-- ENTROPY_SOURCE: a noise source fails a continuous test, or the generator's datapaths disagree (R325). -/
def execEntropySource (e : GenFail) (s : State) : Host.Outcome State Fault Refusal :=
  if s.tandemsRun then
    .next (match e with
      | .source k => s.sourceFails k
      | .datapaths => s.datapathsDisagree)
  else .next s

end Sys2Proof.Machine
end

