-- ==== Sys2Proof/Machine/Pipeline.lean ====
section
/-! DEFINITION. How a job's input is fetched, its engine found, and its output written: operand parts and their accesses
(R199, R218, R333, R334), fragment lists (R201), poison and re-runs (R35, R253, R254, R302), and engine contexts
(R236, R249, R254, R255). -/

namespace Sys2Proof.Machine

/-! ## Fields of a job's entry -/

/-- LEN or A_LEN; KEY_WRAP, KEY_EVICT and KEY_DELIVER_SEALED have no operand A (R208). -/
def Job.len (j : Job) : Nat := if j.opcode ∈ [0x0302, 0x0303, 0x0304] then 0 else le j.raw 24 4
def Job.layout (j : Job) : Layout :=
  match opInfo j.opcode with
  | some (_, l, _) => l
  | none => .plain

/-- A source fragment list is named (R203, R206, R207, R211); RANDOM's list is a destination (R208). -/
def Job.srcIsList (j : Job) : Bool :=
  j.layout != .plain && j.opcode != 0x0302 && j.opcode != 0x0500 && le j.raw 28 2 != 0

/-- A destination list: its address and entry count. -/
def Job.dstList (j : Job) : Nat × Nat :=
  if j.opcode = 0x0500 then (le j.raw 16 8, le j.raw 28 2)
  else match j.layout with
    | .sym | .proto => (le j.raw 32 8, le j.raw 30 2)
    | _ => (0, 0)

/-- The source as fragments. -/
def Job.srcFrags (j : Job) : List Frag := if j.srcIsList then j.srcL else [⟨le j.raw 16 8, j.len, false⟩]

/-- The destination as fragments. -/
def Job.dstFrags (j : Job) : List Frag :=
  if j.dstList.2 ≠ 0 then j.dstL
  else match j.layout with
    | .sym => [⟨le j.raw 32 8, j.len, false⟩]
    | .digest => [⟨le j.raw 32 8, le j.raw 40 2, false⟩]
    | .proto => [⟨le j.raw 32 8, le j.raw 76 4, false⟩]
    | _ => [⟨le j.raw 16 8, j.len, false⟩]

/-- AEAD decryption of at most 65,536 bytes, or in TC, and the opening chains, are held (R205, R250). -/
def Job.held (j : Job) : Bool :=
  (j.opcode == 0x0101 && (j.tc || j.len ≤ 65536)) || j.opcode == 0x0600 || j.opcode == 0x0602

/-- Hold pages of a job (R249). -/
def Job.pagesNeeded (j : Job) : Nat := if j.held then max 1 (ceilDiv j.len 4096) else 0

/-- The chunk from the last checkpoint ends here (R242). (DEDUCED, log entry 25.) -/
def Job.chunkEnd (j : Job) : Nat := min j.len (j.offset + 4096)
/-- It is the last one. -/
def Job.lastChunk (j : Job) : Bool := j.len ≤ j.offset + 4096
/-- Input needed to compute it: XTS ciphertext stealing joins a tail of under 16 bytes to the block before it (R245). -/
def Job.readEnd (j : Job) : Nat := if j.alg = 0x12 ∧ j.len - j.chunkEnd < 16 then j.len else j.chunkEnd

/-- The job checks a tag read from TAG_ADDR. -/
def Job.readsTag (j : Job) : Bool := j.opcode == 0x0101 || j.opcode == 0x0121
/-- The job compares a digest with an expected value (R283). -/
def Job.compares (j : Job) : Bool := j.opcode == 0x0201 || j.opcode == 0x0203

/-- Operand code of a part (R219). -/
def Part.code : Part → Nat
  | .src => 2
  | .expect | .b => 3
  | .aad | .c => 4
  | .tag | .d => 5
  | .listS => 7
  | .listD => 8

/-! ## Reading -/

/-- One read to issue: part, offset in the operand, where. -/
abbrev Fetch := Part × Nat × Frag

/-- The reads of n bytes of a buffer from offset 0. -/
def bufferReads (p : Part) (addr n : Nat) : List Fetch := (span [⟨addr, n, false⟩] 0 n).map fun x => (p, x.1, x.2)

/-- Input a job still needs up to its next stop: for a cipher chunk the AAD, the chunk, and with the last chunk the tag;
for a digest the expected value, then the message; otherwise every input operand. -/
def Job.group (j : Job) : List Fetch :=
  let srcTo (e : Nat) : List Fetch := (span j.srcFrags j.src.length (e - j.src.length)).map fun x => (.src, x.1, x.2)
  match engineOf j.opcode with
  | some .ce =>
    (if j.layout = .sym ∧ j.aad.length < le j.raw 48 2 then bufferReads .aad (le j.raw 40 8) (le j.raw 48 2) else [])
      ++ srcTo j.readEnd
      ++ (if j.readsTag ∧ j.lastChunk ∧ j.tagIn = [] then bufferReads .tag (le j.raw 56 8) (byteAt j.raw 50) else [])
  | some .de =>
    if j.compares ∧ j.expect = [] then bufferReads .expect (le j.raw 32 8) (le j.raw 40 2) else srcTo j.len
  | _ =>
    let op := j.opcode
    srcTo (if op = 0x0500 then 0 else j.len)
      ++ (if op ∈ [0x0401, 0x0405, 0x0406] ∧ j.opB = [] then bufferReads .b (le j.raw 32 8) (le j.raw 40 4) else [])
      ++ (if op ∈ [0x0400, 0x0401, 0x0405] ∧ j.opC = [] then bufferReads .c (le j.raw 48 8) (le j.raw 56 4) else [])
      ++ (if op = 0x0401 ∧ j.opD = [] then bufferReads .d (le j.raw 64 8) (le j.raw 72 4) else [])

/-- R333, R334: check and issue reads in order; answers the first refused one, the rest not issued. -/
def issueAll : List Fetch → State → Nat → Option (Part × Nat) × State
  | [], s, _ => (none, s)
  | (p, off, f) :: rest, s, id =>
    match s.job id with
    | none => (none, s)
    | some j =>
      let ok := s.granted j.inst f.addr f.len false
      let s := s.countCheck ok
      if ok then
        let r := s.issueRead j.inst j.port f.addr f.len (.job id)
        issueAll rest (r.2.updJob id fun k => { k with pieces := k.pieces ++ [⟨r.1, p, f.addr, off, f.len, none, none⟩] }) id
      else (some (p, off), s)

/-- End job id by number. -/
def State.finishId (s : State) (id : Nat) (st : Status) (result : Nat) : State :=
  match s.job id with
  | some j => s.finish j st result
  | none => s

/-- Issue reads for a job; a refusal ends it with REGION_VIOLATION (R339). One without a sequencer waits for it (R235). -/
def State.issueFor (s : State) (id : Nat) (l : List Fetch) : State :=
  if (s.job id).any (·.unplaced) then s
  else
    let r := issueAll l s id
    match r.1 with
    | some (p, off) => r.2.finishId id .regionViolation (location p.code off)
    | none => r.2

/-- Reads of a job's fragment lists (R201); when read again, only the source list. -/
def Job.listReads (j : Job) (again : Bool) : List Fetch :=
  (if j.srcIsList then bufferReads .listS (le j.raw 16 8) (16 * le j.raw 28 2) else [])
    ++ (if !again && j.dstList.2 != 0 then bufferReads .listD j.dstList.1 (16 * j.dstList.2) else [])

/-- Bytes of a part from the pieces, in order. -/
def Job.got (j : Job) (p : Part) : Bytes := ((j.pieces.filter (·.part == p)).map fun x => x.data.getD []).flatten

/-- Input that has arrived joins the job's operands. -/
def Job.absorb (j : Job) : Job :=
  { j with src := j.src ++ j.got .src, aad := j.aad ++ j.got .aad, tagIn := j.tagIn ++ j.got .tag
           expect := j.expect ++ j.got .expect, opB := j.opB ++ j.got .b, opC := j.opC ++ j.got .c
           opD := j.opD ++ j.got .d, pieces := [] }

/-! ## Engines (R225, R236, R249, R254, R255) -/

/-- Engines of a kind by number: CE 0 to 15, DE 16 to 23, LF 24 to 27, EL 28 to 35. -/
def engRange : EngineKind → Nat × Nat
  | .ce => (0, 16)
  | .de => (16, 8)
  | .lf => (24, 4)
  | .el => (28, 8)

def engNo (k : EngineKind) (e : Nat) : Option (Fin 36) :=
  if h : e < (engRange k).2 ∧ (engRange k).1 + e < 36 then some ⟨(engRange k).1 + e, h.2⟩ else none

/-- Kind and unit number of an engine. -/
def engKind (e : Fin 36) : EngineKind × Nat :=
  if e.val < 16 then (.ce, e.val) else if e.val < 24 then (.de, e.val - 16)
  else if e.val < 28 then (.lf, e.val - 24) else (.el, e.val - 28)

/-- Cluster of an engine (R17); 4 for an edge lane, which belongs to none (R15). -/
def engCluster (e : Fin 36) : Nat :=
  match (engKind e).1 with
  | .ce => (engKind e).2 / 4
  | .de => (engKind e).2 / 2
  | .lf => (engKind e).2
  | .el => 4

/-- First counter index of an engine (R390). -/
def engCounter (e : Fin 36) : Nat :=
  match (engKind e).1 with
  | .ce => 0x2040 + (engKind e).2
  | .de => 0x2050 + (engKind e).2
  | .lf => 0x2058 + (engKind e).2
  | .el => 0x2060 + (engKind e).2

def State.clusterFenced (s : State) (c : Nat) : Bool := if h : c < 4 then s.units.fenced[c] else false

/-- The engine serves this owner (none: BULK): not quarantined, its cluster not fenced. -/
def State.serves (s : State) (e : Fin 36) (owner : Option (Fin 128)) : Bool :=
  s.units.eng[e].owner == owner && !s.units.eng[e].quar && !s.clusterFenced (engCluster e)

/-- Who owns the engines a job may use: its instance in TC, nobody in BULK (R223). -/
def Job.class (j : Job) : Option (Fin 128) := if j.tc then some j.inst else none

/-- Engines of a kind in a class. -/
def State.engines (s : State) (k : EngineKind) (owner : Option (Fin 128)) : List (Fin 36) :=
  (List.finRange 36).filter fun e => (engKind e).1 == k && s.serves e owner

/-- Contexts in use, direct-feed sessions included (R296). -/
def State.occupied (s : State) (e : Fin 36) : Nat :=
  s.units.eng[e].contexts.length + (s.insts.toList.filter fun i => i.df.engine == some e.val).length

/-- Contexts of an engine (R42, R228, R238). -/
def contextCap (k : EngineKind) (tc : Bool) : Nat :=
  if tc then 1 else match k with
    | .ce => 8
    | .de => 16
    | _ => 1

/-- Least number of occupied contexts first, then the lowest engine number (R236). -/
def State.leastBusy (s : State) : List (Fin 36) → Option (Fin 36)
  | [] => none
  | e :: rest =>
    match s.leastBusy rest with
    | some f => if s.occupied f < s.occupied e then some f else some e
    | none => some e

/-- The cluster of a job's sequencer. -/
def Job.cluster (j : Job) : Nat :=
  match j.seqr with
  | some c => c.val / 4
  | none => 4

/-- Engines that could take the job now or later: of its kind and class, not one its present run failed on (R254). -/
def State.candidates (s : State) (j : Job) (k : EngineKind) : List (Fin 36) :=
  (s.engines k j.class).filter fun e => !j.failedOn.contains e.val

/-- The engine that takes the job now (R236, R249); none where it has to wait. -/
def State.engineFor (s : State) (j : Job) (k : EngineKind) : Option (Fin 36) :=
  let free := (s.candidates j k).filter fun e =>
    s.occupied e < contextCap k j.tc && s.units.eng[e].pages + j.pagesNeeded ≤ 16
  let near := free.filter fun e => engCluster e == j.cluster
  s.leastBusy (if near.isEmpty then free else near)

/-- A job whose context can be served: its input up to the next stop is there, and a sequencer moves its data (R235). -/
def Job.ready (j : Job) : Bool := j.phase == .data && j.pieces.isEmpty && j.group.isEmpty && !j.unplaced

/-- Job i holds a context of engine e, and its input is there. -/
def State.servable (s : State) (e : Fin 36) (i : Nat) : Bool :=
  s.units.eng[e].contexts.contains i && match s.job i with
    | some j => j.ready
    | none => false

/-- The job the engine serves: the one whose quantum runs; else the first of its contexts, in turn, whose input is in staging. -/
def State.servedBy (s : State) (e : Fin 36) : Option Nat :=
  match s.units.eng[e].serving.filter (s.servable e) with
  | some i => some i
  | none => s.units.eng[e].contexts.find? (s.servable e)

/-- Job i's context is loaded where another stood: a context switch is counted, and its key is loaded again (R112, R113, R237, R390). -/
def State.loadContext (s : State) (e : Fin 36) (i : Nat) : State :=
  if s.units.eng[e].loaded = some i then s
  else
    let s := if s.units.eng[e].loaded.isSome then s.count (engCounter e) 4 else s
    (s.updEng e fun g => { g with loaded := some i }).loadKey ((s.job i).bind (·.key))

/-- Hold the engine to the job it serves now, before another's input or context comes (R237). -/
def State.latch (s : State) (e : Fin 36) : State :=
  match s.servedBy e with
  | some i => (s.updEng e fun g => { g with serving := some i, newest := g.newest.filter (· != i) }).loadContext e i
  | none => s

/-- The turn order with newcomer x served right after the job served now, behind earlier newcomers (R237). -/
def joinTurn (served : Option Nat) (newest l : List Nat) (x : Nat) : List Nat :=
  match served with
  | none => l ++ [x]
  | some i =>
    let post := (l.dropWhile (· != i)).drop 1
    l.takeWhile (· != i) ++ l.filter (· == i) ++ post.takeWhile newest.contains ++ [x] ++ post.dropWhile newest.contains

/-! ## Sequencers (R225, R228, R235) -/

def State.seqLoad (s : State) (c : Fin 16) : Nat := (s.jobs.filter fun j => j.seqr == some c).length

/-- A sequencer serves this owner and its cluster is not fenced. -/
def State.seqServes (s : State) (c : Fin 16) (owner : Option (Fin 128)) : Bool :=
  s.units.cs[c].owner == owner && !s.clusterFenced (c.val / 4)

/-- The cluster of sequencer c has an engine of the kind with a free context (R235). -/
def State.nearEngine (s : State) (c : Fin 16) (k : Option EngineKind) : Bool :=
  match k with
  | none => true
  | some k => (s.engines k none).any fun e => engCluster e == c.val / 4 && s.occupied e < contextCap k false

/-- Order of R235: an engine near first, then fewest jobs; earlier ones win ties. -/
def State.bestSeq (s : State) (k : Option EngineKind) : List (Fin 16) → Option (Fin 16)
  | [] => none
  | c :: rest =>
    match s.bestSeq k rest with
    | none => some c
    | some d =>
      let nc := s.nearEngine c k
      let nd := s.nearEngine d k
      if (nd && !nc) || (nc == nd && s.seqLoad d < s.seqLoad c) then some d else some c

/-- A sequencer for a job whose own has gone: of BULK with room for it, in the home region first (R19, R235); of its reservation, one that
runs nothing but its chain (R228). -/
def State.seqAgain (s : State) (j : Job) : Option (Fin 16) :=
  let all := List.finRange 16
  if j.tc then
    all.find? fun c => s.seqServes c (some j.inst) && s.jobs.all fun k => k.seqr != some c || k.chain == j.chain
  else
    let free := all.filter fun c => s.seqServes c none && decide (s.seqLoad c < 32)
    let home := free.filter fun c => c.val / 8 == homePort j.inst
    s.bestSeq (engineOf j.opcode) (if home.isEmpty then free else home)

/-- A job that waited for a sequencer and has one reads on. -/
def State.resumeReads (s : State) (id : Nat) : State :=
  match s.job id with
  | none => s
  | some j =>
    if j.unplaced ∨ j.pieces ≠ [] then s
    else match j.phase with
      | .lists => s.issueFor id (j.listReads (j.srcL != []))
      | .data => s.issueFor id j.group
      | _ => s

/-- Put job id on another sequencer, or let it wait for one. -/
def State.placeSeqr (s : State) (id : Nat) : State :=
  match s.job id with
  | none => s
  | some j =>
    let c := s.seqAgain j
    s.updJob id fun k => { k with seqr := c, unplaced := c.isNone }

/-- The sequencer that takes m jobs of instance n; none where the entry has to wait. The inner none is the TC job of a
reservation with no sequencer left (R222). -/
def State.seqFor (s : State) (n : Fin 128) (k : Option EngineKind) (m : Nat) : Option (Option (Fin 16)) :=
  let all := List.finRange 16
  if (s.inst n).isTc then
    match all.filter (s.seqServes · (some n)) with
    | [] => some none
    | l => (l.find? fun c => s.seqLoad c == 0).map some
  else
    let free := all.filter fun c => s.seqServes c none && s.seqLoad c + m ≤ 32
    let home := free.filter fun c => c.val / 8 == homePort n
    (s.bestSeq k (if home.isEmpty then free else home)).map some

/-- Units of kind k (0 sequencers, then as in TC_RESERVE) that n owns and that serve. -/
def State.unitsHeld (s : State) (n : Fin 128) (k : Nat) : Nat :=
  if k = 0 then ((List.finRange 16).filter fun c => s.seqServes c (some n)).length
  else ((List.finRange 36).filter fun e => tcByte (engKind e).1 == k && s.serves e (some n)).length

/-- A rebuild is due that concerns n (R226). -/
def State.rebuilding (s : State) (n : Fin 128) : Bool :=
  s.units.rebuild && [0, 1, 2, 3].any fun k => s.unitsHeld n k < byteAt (s.inst n).live.tcReserve k

/-- The engine on which a job holds a context keeps to the job it serves now. -/
def State.latchFor (s : State) (j : Job) : State :=
  match j.engine with
  | some e => if h : e < 36 then s.latch ⟨e, h⟩ else s
  | none => s

/-- Give a job its context and hold pages, and load its key (R113, R237). -/
def State.giveEngine (s : State) (id : Nat) (e : Fin 36) (pages : Nat) : State :=
  let s := s.latch e
  let s := s.updEng e fun g =>
    { g with contexts := joinTurn g.serving g.newest g.contexts id, pages := g.pages + pages
             newest := if g.serving.isSome then g.newest ++ [id] else g.newest
             loaded := if g.contexts.isEmpty then some id else g.loaded }
  let s := s.loadKey ((s.job id).bind (·.key))
  (s.updJob id fun j => { j with engine := some e.val, pages := pages, phase := .data }).count (engCounter e) 1

/-! ## Forwarding (R320) -/

/-- Input bytes of a job (R320). -/
def Job.inputBytes (j : Job) : Nat :=
  j.len + (if j.opcode = 0x0405 ∨ j.opcode = 0x0401 ∨ j.opcode = 0x0406 then le j.raw 40 4 + le j.raw 56 4 else 0)
    + (if j.opcode = 0x0401 then le j.raw 72 4 else 0)

/-- R320: the follower that takes the job, if it may be forwarded now. -/
def State.forwardTo (s : State) (j : Job) : Option (Fin 4) :=
  if j.tc = false ∧ j.opcode ∈ [0x0401, 0x0405, 0x0406] ∧ j.inputBytes ≤ 16384 ∧ s.cfg.fwdEnable
      ∧ s.cas.role ≠ .cutOff ∧ j.member4 = none ∧ (s.engines .lf none).all (fun e => s.occupied e != 0) then
    (List.finRange 4).find? fun m => s.cas.peers[m].status == 2 && s.cas.peers[m].key.isSome && s.cas.peers[m].free != 0
  else none

/-- What FWD_JOB carries. -/
def Job.work (j : Job) : FwdWork := ⟨j.opcode, j.alg, j.opspec, j.src, j.opB, j.opC, j.opD⟩

/-- A job waits: its TC reservation is being rebuilt, or it has no sequencer yet (R226, R228, R235). -/
def State.unseated (s : State) (j : Job) : Bool := j.unplaced || (j.tc && s.rebuilding j.inst)

/-- The job waits for a context. -/
def State.waitContext (s : State) (j : Job) : State :=
  let s := if j.phase = .context then s else s.count (if j.tc then 0x2010 else 0x2011) 2
  s.updJob j.id fun x => { x with phase := .context }

/-- The job goes to follower m (R320). -/
def State.forward (s : State) (j : Job) (m : Fin 4) : State :=
  let s := s.updCas fun c => { c with peers := c.peers.set m { c.peers[m] with free := c.peers[m].free - 1 } }
  (s.updJob j.id fun x => { x with phase := .forwarded, member4 := some m }).cascadeSend m (.fwdJob j.id j.work)

/-- Find an engine for a job whose input is complete; where none is free it is forwarded or waits for a context, and where
the class has none left it ends with ENGINE_FAULT (R21, R236, R238, R254, R320). It waits for a sequencer, and a TC job while its
reservation is rebuilt (R226, R235). (DEDUCED, log entry 24.) -/
def State.seekEngine (s : State) (id : Nat) (k : EngineKind) : State :=
  match s.job id with
  | none => s
  | some j =>
    if j.engine.isSome then s
    else if s.unseated j then s.waitContext j
    else match s.engineFor j k with
      | some e => s.giveEngine id e j.pagesNeeded
      | none =>
        if s.candidates j k = [] then s.finish j .engineFault 0
        else match s.forwardTo j with
          | some m => s.forward j m
          | none => s.waitContext j

/-- A forwarded job takes a free BULK engine, at most FWD_ENGINES of them at once (R320). -/
def State.startFwd (s : State) (id : Nat) : State :=
  match s.cas.fwdIn.find? (·.id == id) with
  | none => s
  | some f =>
    if s.pwr.state ≠ .run ∨ s.pwr.prep.isSome ∨ s.cfg.fwdEngines ≤ s.cas.fwdRun.length then s
    else match s.leastBusy ((s.engines .lf none).filter fun e => s.occupied e = 0 && !f.failedOn.contains e.val) with
      | some e =>
        let s := s.updEng e fun g => { g with contexts := g.contexts ++ [id] }
        let s := s.updCas fun c =>
          { c with fwdIn := c.fwdIn.filter (·.id != id), fwdRun := c.fwdRun ++ [{ f with engine := some e.val }] }
        (s.count (engCounter e) 1).count (engCounter e) 3
      | none => s

/-- Jobs whose sequencer has gone take one that has room now, and jobs that wait for a context take those that have become free,
in order of arrival, forwarded jobs in turn with the block's own (R228, R235, R320). -/
def State.serveWaiting (s : State) : State :=
  let s := s.each ((s.jobs.filter fun j => j.unplaced && !(j.tc && s.rebuilding j.inst)).map (·.id)) fun s id =>
    (s.placeSeqr id).resumeReads id
  let ids := (s.jobs.filter (·.phase == .context)).map (·.id) ++ s.cas.fwdIn.map (·.id)
  s.each (ids.mergeSort) fun s id =>
    match s.job id with
    | some j =>
      match engineOf j.opcode with
      | some k => s.seekEngine id k
      | none => s
    | none => s.startFwd id

/-! ## The job goes on -/

/-- More input is read, or the engine is sought once there is nothing left to read. -/
def State.goOn (s : State) (id : Nat) : State :=
  match s.job id with
  | none => s
  | some j =>
    if j.group ≠ [] then s.issueFor id j.group
    else match engineOf j.opcode with
      | some k => s.seekEngine id k
      | none => s

/-- Begin step 8 of R194; where no engine of the needed kind remains in the class, ENGINE_FAULT (R21), once no rebuild of
its reservation is due (R226). (DEDUCED, log entry 24.) -/
def State.toData (s : State) (id : Nat) : State :=
  match s.job id with
  | none => s
  | some j =>
    match engineOf j.opcode with
    | some k =>
      if s.engines k j.class = [] ∧ !s.unseated j then s.finish j .engineFault 0
      else if j.len = 0 ∧ (j.opcode = 0x0110 ∨ j.opcode = 0x0111) then s.finish j .ok 0
      else (s.updJob id fun x => { x with phase := .data }).goOn id
    | none => (s.updJob id fun x => { x with phase := .data }).goOn id

/-- Step 7 of R194, then step 8. A path's key takes its slot first (R112). -/
def State.toDraw (s : State) (id : Nat) : State :=
  match s.job id with
  | none => s
  | some j =>
    match s.takeSlot j with
    | none => s.finish j .keyNotReady 0
    | some (j, s) =>
      match s.drawStep j with
      | .ok s => s.toData id
      | .error (st, r, s) => s.finishId id st r

/-- Step 6 of R194: the fragment lists are read. -/
def State.toLists (s : State) (id : Nat) : State :=
  match s.job id with
  | none => s
  | some j =>
    if j.listReads false = [] then s.toDraw id
    else (s.updJob id fun x => { x with phase := .lists }).issueFor id (j.listReads false)

/-- The failure of a list check, as a completion (R201, R219). -/
def ListEnd.fail (code : Nat) : ListEnd → Option (Status × Nat)
  | .ok _ => none
  | .malformed o => some (.malformedEntry, location code o)
  | .mismatch n => some (.lengthMismatch, sumResult n)
  | .limit => some (.lengthLimit, 0)

/-- The fragments of a list that passed. -/
def ListEnd.frags : ListEnd → List Frag
  | .ok l => l
  | _ => []

/-- Lists read for the first time: checked and summed (R201); the record-layer capacity follows (R260). -/
def State.listsIn (s : State) (j : Job) : State :=
  let a := if j.srcIsList then checkList (j.got .listS) false (some j.len) else .ok []
  let b := if j.dstList.2 = 0 then .ok []
    else checkList (j.got .listD) true (if j.layout = .proto then none else some j.len)
  match a.fail 7, b.fail 8 with
  | some (st, r), _ => s.finish j st r
  | none, some (st, r) => s.finish j st r
  | none, none =>
    let room := (b.frags.map (·.len)).sum
    if j.layout = .proto ∧ j.dstList.2 ≠ 0 ∧ room < protoNeed j.raw then s.finish j .lengthLimit (protoNeed j.raw)
    else (s.updJob j.id fun x => { x with srcL := a.frags, dstL := b.frags, pieces := [] }).toDraw j.id

/-- The source list read again: a sum that differs from the first ends the job (R201). -/
def State.listAgain (s : State) (j : Job) : State :=
  match checkList (j.got .listS) false none with
  | .ok l =>
    let sum := (l.map (·.len)).sum
    if sum = j.len then (s.updJob j.id fun x => { x with srcL := l, pieces := [], phase := .data }).goOn j.id
    else s.finish j .lengthMismatch (sumResult sum)
  | e => match e.fail 7 with
    | some (st, r) => s.finish j st r
    | none => s

/-- Input is fetched again from the last checkpoint, a source list first (R35, R201). (DEDUCED, log entry 24.) -/
def State.refetch (s : State) (id : Nat) : State :=
  match s.job id with
  | none => s
  | some j =>
    let s := s.updJob id fun x => { x with pieces := [] }
    if j.phase = .lists then s.issueFor id (j.listReads (j.srcL != []))
    else if j.srcIsList then (s.updJob id fun x => { x with phase := .lists }).issueFor id (j.listReads true)
    else s.goOn id

/-- Ed25519 signing reads its message once more (R307). -/
def Job.secondPass (j : Job) : Bool := j.opcode == 0x0400 && j.alg == 0x42 && j.offset == 0

/-- Every read of the job has returned (R35, R286, R446): poison is fetched again once, then lists are checked or the
operands join the job. -/
def State.arrived (s : State) (id : Nat) : State :=
  match s.job id with
  | none => s
  | some j =>
    let s := s.latchFor j
    match j.pieces.find? fun p => p.bad.isSome with
    | some p =>
      if j.refetched then s.finish j .poisonedData (location p.part.code (p.off + p.bad.getD 0))
      else (s.updJob id fun x => { x with refetched := true }).refetch id
    | none =>
      if j.phase = .lists then (if j.srcL ≠ [] then s.listAgain j else s.listsIn j)
      else if j.secondPass then
        (s.updJob id fun x => { x.absorb with offset := 1, src := [] }).refetch id
      else (s.updJob id fun x => x.absorb).goOn id

/-! ## Writing (R218, R250, R333, R334) -/

/-- One write to issue: operand code and offset for its location, address, bytes. -/
abbrev Out := Nat × Nat × Nat × Bytes

/-- The writes of data at offset off of an operand, DISCARD fragments left out (R200). -/
def outs (code : Nat) (l : List Frag) (off : Nat) (data : Bytes) : List Out :=
  ((span l off data.length).filter fun x => !x.2.discard).map fun x => (code, x.1, x.2.addr, slice data (x.1 - off) x.2.len)

/-- The writes of data to one buffer; none for address 0. -/
def outBuf (code addr : Nat) (data : Bytes) : List Out := if addr = 0 then [] else outs code [⟨addr, data.length, false⟩] 0 data

/-- Bytes of a list of writes. -/
def outBytes (l : List Out) : Nat := (l.map fun o => o.2.2.2.length).sum

/-- The first write the region table refuses. -/
def State.refused (s : State) (n : Fin 128) (l : List Out) : Option Out := l.find? fun o => !s.granted n o.2.2.1 o.2.2.2.length true

/-- Issue one posted data write of job j. (DEDUCED, log entry 24.) -/
def State.issueData (s : State) (j : Job) (o : Out) : State :=
  (s.issueWrite j.inst j.port o.2.2.1 o.2.2.2 (.data j.id j.sq)).2

/-- R218: check every write, then issue them all; the refused one where there is one, and then nothing is issued. -/
def State.writeAll (s : State) (j : Job) (l : List Out) : Option Out × State :=
  match s.refused j.inst l with
  | some o => (some o, s.countCheck false)
  | none => (none, s.each l fun s o => (s.countCheck true).issueData j o)

/-- Write a job's last output and end it OK; a refused write ends it with REGION_VIOLATION (R339). -/
def State.writeEnd (s : State) (j : Job) (l : List Out) (result : Nat) : State :=
  let r := s.writeAll j l
  match r.1 with
  | some o => r.2.finish j .regionViolation (location o.1 o.2.1)
  | none => r.2.finish j .ok result

/-! ## A run that fails (R254, R255, R302) -/

/-- Take the job's context away from its engine. -/
def State.leaveEngine (s : State) (j : Job) : State :=
  (s.freeUnits j).updJob j.id fun x => { x with engine := none, pages := 0 }

/-- Input that a new run starts from: a held or public-key job starts over, another from its checkpoint (R19, R253, R287, R302). -/
def Job.rewind (j : Job) : Job :=
  if j.held ∨ engineOf j.opcode = some .lf then
    { j with src := [], aad := [], tagIn := [], opB := [], opC := [], opD := [], offset := 0, pieces := [] }
  else
    { j with src := j.src.take j.offset, aad := if j.offset = 0 then [] else j.aad, tagIn := [], pieces := [] }

/-- Run again from the checkpoint with the input fetched again; a source list is read again only for poison and for a
public-key job (R201). -/
def State.runAgain (s : State) (j : Job) (lists : Bool) : State :=
  let s := s.updJob j.id fun x => { x.rewind with phase := .data }
  if lists ∧ j.srcIsList then (s.updJob j.id fun x => { x with phase := .lists }).issueFor j.id (j.listReads true)
  else s.goOn j.id

/-- Move a job to another engine of its class: a chunk job keeps its input, and what is still on its way to it; another
fetches it again (R253, R254, R287, R302). -/
def State.moveRun (s : State) (j : Job) : State :=
  if engineOf j.opcode = some .ce ∧ j.held = false then
    if j.pieces ≠ [] then s.leaveEngine j
    else ((s.leaveEngine j).updJob j.id fun x => { x with phase := .data }).goOn j.id
  else (s.leaveEngine j).runAgain j (engineOf j.opcode == some .lf)

/-- What a comparison on engine e finds: a fault injected there makes it fail (R387). -/
def State.compared (s : State) (e : Nat) (c : Compare) : Compare :=
  if h : e < 36 then (if s.units.eng[e].inject then .differ else c) else c

/-- A failed comparison: a strike on the engine, the run repeated on another, and after three failed runs ENGINE_FAULT
(R254). It may count toward an alarm (R256). (DEDUCED, log entry 37.) -/
def State.strike (s : State) (j : Job) (e : Nat) : State :=
  if h : e < 36 then
    let s := s.updEng ⟨e, h⟩ fun g => { g with strikes := g.strikes + 1, inject := false }
    let s := s.updUnits fun u => { u with misses := u.misses ++ [(e, s.now)] }
    let s := s.count (engCounter ⟨e, h⟩) (if (engKind ⟨e, h⟩).1 = .lf ∨ (engKind ⟨e, h⟩).1 = .el then 2 else 3)
    let failed := j.failedOn ++ [e]
    if 3 ≤ failed.length then s.finish j .engineFault 0
    else (s.updJob j.id fun x => { x with failedOn := failed }).moveRun { j with failedOn := failed }
  else s

/-- Poison in a job's staging, hold pages or scratch: its input is fetched again, an expected value too, and it runs again once, in the
context it holds (R35, R236, R253, R286, R302, R446); `loc` is the location of the poisoned input, 0 for internal state. -/
def State.poisonedRun (s : State) (j : Job) (loc : Nat) : State :=
  if j.refetched then s.finish j .poisonedData loc
  else (s.updJob j.id fun x => { x with refetched := true, expect := [] }).runAgain { j with refetched := true } true

end Sys2Proof.Machine
end

