-- ==== Sys2Proof/Machine/Sequence.lean ====
section
/-! DEFINITION. Dispatch (R222 to R228, R234, R235, R239, R240), chains (R214 to R217), PAD and NOP (R212, R213), the
checks of an entry's opcode row (R194), key resolution (R104), and quantum boundaries (R237). -/

namespace Sys2Proof.Machine

/-! ## The head of an SQ -/

/-- What stands first in a slice. -/
inductive Head where
  | empty
  | pad
  | run (l : List Cached)   -- a lone entry, or a whole chain with the PADs inside it
  | part                    -- a chain whose last member is not in the slice
  | overLong                -- a chain whose units would pass 16 (R214)
  deriving DecidableEq, Repr

/-- Entries up to the end of the first run, and whether its last member is there (R214). -/
def takeRun : List Cached → List Cached × Bool
  | [] => ([], false)
  | e :: rest =>
    if isPad e.bytes ∨ entryChain e.bytes then
      let r := takeRun rest
      (e :: r.1, r.2)
    else ([e], true)

def Sq.head (q : Sq) : Head :=
  match q.slice with
  | [] => .empty
  | e :: _ =>
    if isPad e.bytes then .pad
    else
      let r := takeRun q.slice
      if r.2 then .run r.1
      else if q.full.isSome || 16 ≤ q.cached then .overLong else .part

/-- Members of a run: its entries other than PADs. -/
def members (l : List Cached) : List Cached := l.filter fun e => !isPad e.bytes

/-- SQ g takes part in dispatch: its ring runs or has stopped, its instance is ACTIVE, or QUIESCING (R173, R222). -/
def State.mayDispatch (s : State) (g : Fin 512) : Bool :=
  match (s.sq g).owner with
  | none => false
  | some n =>
    s.fetches && ((s.sq g).state == .enabled || (s.sq g).state == .stopped)
      && ((s.inst n).state == .active || (s.inst n).state == .quiescing)

/-- No earlier entry of the SQ is without its completion or has a data write without a response (R240). -/
def State.fenceClear (s : State) (g : Fin 512) : Bool :=
  s.jobs.all (·.sq != g) && s.fab.writes.all fun w => match w.what with
    | .data _ h => h != g
    | _ => true

/-! ## Eligibility (R222) -/

/-- The run at the head of g is eligible but for completion places. -/
def State.nearlyEligible (s : State) (g : Fin 512) : Option (Fin 128 × List Cached × Option (Fin 16)) :=
  match (s.sq g).owner, (s.sq g).head with
  | some n, .run l =>
    let m := (members l).length
    let fence := match members l with
      | e :: _ => entryFence e.bytes
      | [] => false
    let kind := ((members l).filterMap fun e => engineOf (le e.bytes 2 2)).head?
    if s.mayDispatch g && (s.inst n).outstanding + m ≤ (s.inst n).credits && (!fence || s.fenceClear g) then
      (s.seqFor n kind m).map fun c => (n, l, c)
    else none
  | _, _ => none

/-- Its CQ has a place for each member (R182). -/
def State.placesFor (s : State) (g : Fin 512) (m : Nat) : Bool :=
  match s.cqOfSq g with
  | some q => (s.cq q).reserved + m ≤ (s.cq q).places
  | none => false

def State.eligible (s : State) (g : Fin 512) : Option (Fin 128 × List Cached × Option (Fin 16)) :=
  match s.nearlyEligible g with
  | some r => if s.placesFor g (members r.2.1).length then some r else none
  | none => none

/-! ## Jobs -/

/-- The job of one entry (R142, R215). -/
def Cached.job (e : Cached) (id chain member : Nat) (n : Fin 128) (g : Fin 512) (q : Fin 256) (hand : Nat) (tc : Bool)
    (consumers : Nat) (c : Option (Fin 16)) : Job :=
  { id := id, inst := n, sq := g, cq := q, hand := hand, dropped := false, tc := tc, seqr := c, unplaced := false
    raw := e.bytes, at_ := e.at_, chain := chain, member := member, waiting := decide (0 < member), irq := entryIrq e.bytes, phase := .assigned
    consumers := consumers, prev := none, key := none, goneKey := none, keyCopy := none, pend := none, stale := false
    dead := e.poison.map fun o => (.poisonedData, location 1 o), srcL := [], dstL := [], pieces := [], src := [], aad := []
    tagIn := [], expect := [], opB := [], opC := [], opD := [], offset := 0, released := 0, out := [], drawn := none
    engine := none, pages := 0, failedOn := [], refetched := false, pub := [], run := 0, runAt := 0, path := []
    ending := none, member4 := none }

/-- Kinds of engine a TC instance reserved (R227). (DEDUCED, log entry 24.) -/
def Inst.kinds (i : Inst) (k : Option EngineKind) : Bool :=
  match k with
  | none => true
  | some k => byteAt i.live.tcReserve (tcByte k) != 0

/-- KEY_PREV without an earlier slot-producing member (R195). (DEDUCED, log entry 11.) -/
def Job.prevMissing (j : Job) : Bool := j.keyPrev && j.prev.isNone

/-- Offsets that step 2 finds besides the entry's own format: KEY_PREV without a slot, a path that goes too deep (R103, R195). -/
def State.moreBad (s : State) (j : Job) : List Nat := badIf j.prevMissing 13 ++ (s.tooDeep j).toList

/-- Steps 1 to 4 of R194 for a job. -/
def State.checkEntry (s : State) (j : Job) : Option (Status × Nat) :=
  let c := entryCheck j.raw j.tc (s.inst j.inst).kinds
  match (s.moreBad j).min? with
  | none => c
  | some o =>
    match c with
    | some (.badOpcode, r) => some (.badOpcode, r)
    | some (.malformedEntry, r) => some (.malformedEntry, min r (location 1 o))
    | _ => some (.malformedEntry, location 1 o)

/-- A member of a chain other than the first that sets FENCE (R214). -/
def Job.fenceInside (j : Job) : Bool := decide (0 < j.member) && entryFence j.raw

/-- KEY_EVICT marks its slot when it is dispatched, alone or with its chain (R114, R222; DEDUCED, log entry 14). -/
def State.markEvict (s : State) (j : Job) : State :=
  if j.opcode = 0x0303 ∧ j.dead = none ∧ j.fenceInside = false ∧ s.checkEntry j = none then
    match s.handleSlot j.inst j.handle with
    | .ok (i, x) => if x.evicting.isNone then s.updSlot i fun y => { y with evicting := some j.id } else s
    | .error _ => s
  else s

/-- A job starts on its sequencer: a poisoned entry, a FENCE inside a chain and an unknown opcode end it at once
(R214, R218, R446). -/
def State.startJob (s : State) (id : Nat) : State :=
  match s.job id with
  | none => s
  | some j =>
    let s := s.updJob id fun x => { x with waiting := false }
    match j.dead with
    | some (st, r) => s.finish j st r
    | none =>
      if j.fenceInside then s.finish j .malformedEntry (location 1 0)
      else if (opInfo j.opcode).isNone then s.finish j .badOpcode 0
      else s

/-- Virtual time a run adds (R234). (DEDUCED, log entry 41.) -/
def runCost (l : List Cached) (weight : Nat) : Rat :=
  ((members l).map fun e =>
    let n := match opInfo (le e.bytes 2 2) with
      | some (_, .sym, _) | some (_, .digest, _) | some (_, .proto, _) => le e.bytes 24 4
      | _ => 0
    ((1 + ceilDiv n 4096) * 4096 : Rat) / (weight : Rat)).sum

/-- Read on once a full slice has room (R172), and complete a bad header whose turn has come (R173). -/
def State.freedSlice (s : State) (g : Fin 512) (wasFull : Bool) : State :=
  let s := s.badHeader g
  if wasFull && (s.sq g).state == .enabled then s.readOn g else s

/-- Dispatch the run at the head of g (R142, R164, R182, R214, R222, R228, R234). -/
def State.dispatchRun (s : State) (g : Fin 512) (n : Fin 128) (l : List Cached) (c : Option (Fin 16)) : State :=
  match s.cqOfSq g with
  | none => s
  | some q =>
    let i := s.inst n
    let first := s.disp.nextJob
    let ms := members l
    let js := ms.zipIdx.map fun p => p.1.job (first + p.2) first p.2 n g q i.hand i.isTc i.live.consumers c
    let full := (s.sq g).full.isSome || 16 ≤ (s.sq g).cached
    let units := (l.map fun e => e.bytes.length / 32).sum
    let s := s.setJobs (s.jobs ++ js)
    let s := s.updDisp fun d => { d with nextJob := first + ms.length }
    let s := s.updCq q fun x => { x with reserved := x.reserved + ms.length }
    let s := s.updInst n fun x =>
      { x with outstanding := x.outstanding + ms.length, rr := s.localSq n g
               vtime := if i.isTc then x.vtime else x.vtime + runCost l x.live.weight }
    let s := s.countBy (if i.isTc then 0x2010 else 0x2011) 1 ms.length
    let s := match c with
      | some c => (s.countBy (0x2030 + c.val) 1 ms.length).countBy (0x2030 + c.val) 2 (flag (decide (1 < ms.length)))
      | none => s
    let s := (s.updSq g fun x => { x with slice := x.slice.drop l.length, full := none }).advance g units
    let s := s.freedSlice g full
    if c.isNone then s.finishId first .engineFault 0 else (s.each js fun s j => s.markEvict j).startJob first

/-! ## Chains that are too long (R214) -/

/-- Every member held of a chain that would pass 16 units completes with MALFORMED_ENTRY, as places permit. The first
argument bounds the recursion. -/
def failOver : Nat → State → Fin 512 → Nat → State
  | 0, s, _, _ => s
  | k + 1, s, g, r =>
    match (s.sq g).slice with
    | [] => s
    | e :: _ =>
      if isPad e.bytes then failOver k (s.dropHead g) g r
      else
        match s.cqOfSq g with
        | some q =>
          if (s.cq q).hasPlace then failOver k ((s.completeEntry g e.bytes .malformedEntry r).dropHead g) g r
          else s.stall q
        | none => s

/-- R214 for the chain at the head of g: it goes only when all its members have their places. -/
def State.overChain (s : State) (g : Fin 512) : State :=
  match (s.sq g).head, (s.sq g).slice with
  | .overLong, e :: _ =>
    if s.mayDispatch g then
      if s.placesFor g (members (s.sq g).slice).length then
        (failOver 17 s g (location 0 (e.at_.toNat % (s.sq g).size))).freedSlice g true
      else match s.cqOfSq g with
        | some q => s.stall q
        | none => s
    else s
  | _, _ => s

/-! ## DISPATCH -/

/-- STALLED for the CQs of SQs whose heads wait only for a place (R182). -/
def State.stallBlocked (s : State) (l : List (Fin 512)) : State :=
  s.each l fun s g =>
    if (s.nearlyEligible g).isSome && (s.eligible g).isNone then
      match s.cqOfSq g with
      | some q => s.stall q
      | none => s
    else s

/-- SQs of n in round robin, beginning after the one served last (R228). -/
def State.turnOrder (s : State) (n : Fin 128) : List (Fin 512) :=
  let l := s.sqsOf n
  l.rotateLeft (((s.inst n).rr + 1) % max 1 l.length)

/-- The first eligible SQ of n in its turn. -/
def State.nextSq (s : State) (n : Fin 128) : Option (Fin 512 × Fin 128 × List Cached × Option (Fin 16)) :=
  (s.turnOrder n).findSome? fun g => (s.eligible g).map fun r => (g, r)

/-- Least V, then least number (R234). (DEDUCED, log entry 41.) -/
def State.leastV (s : State) : List (Fin 128) → Option (Fin 128)
  | [] => none
  | n :: rest =>
    match s.leastV rest with
    | some m => if (s.inst m).vtime < (s.inst n).vtime then some m else some n
    | none => some n

/-- R234: an instance that has become eligible takes at least the lowest V of those that were. (DEDUCED, log entry 24.) -/
def State.raiseV (s : State) (el : List (Fin 128)) : State :=
  let old := el.filter fun n => (s.inst n).wasEligible
  let base := s.leastV old
  { s with insts := s.insts.mapFinIdx fun k i h =>
      let e := el.contains ⟨k, h⟩
      { i with wasEligible := e
               vtime := match base with
                 | some b => if e && !i.wasEligible then max i.vtime (s.inst b).vtime else i.vtime
                 | none => i.vtime } }

/-- BULK instances that hold SQs. -/
def State.bulkInsts (s : State) : List (Fin 128) := allInst.filter fun n => (s.inst n).held && !(s.inst n).isTc

/-- BULK instances that have an eligible SQ. -/
def State.eligibleBulk (s : State) : List (Fin 128) := s.bulkInsts.filter fun n => (s.nextSq n).isSome

/-- Instance n, if it has become eligible, takes at least the lowest V of those that were (R234). -/
def State.noteEligible (s : State) (n : Fin 128) : State :=
  if (s.inst n).isTc || (s.inst n).wasEligible || (s.nextSq n).isNone then s
  else
    let base := s.leastV (s.eligibleBulk.filter fun m => (s.inst m).wasEligible)
    s.updInst n fun i =>
      { i with wasEligible := true
               vtime := match base with
                 | some b => max i.vtime (s.inst b).vtime
                 | none => i.vtime }

/-- RING_READ_RETURN: what it brought may make the ring's instance eligible (R234). A read of a ring that went back to the pool returns
before any other of that number, and reaches nothing (R337). -/
def execRingReadReturn (g : Fin 512) (beats : List Beat) (cache : Option Half) (s : State) : Host.Outcome State Fault Refusal :=
  match s.orphan g with
  | some r => if answers beats r.len ∧ r.out then .next (s.readDone r) else .next s
  | none =>
    let t := s.ringReturn g beats cache
    .next (match (t.sq g).owner with
      | some n => t.noteEligible n
      | none => t)

/-- One decision of the BULK dispatcher (R234): an instance that has run dry with it counts as no longer eligible. (DEDUCED, log
entry 41.) -/
def State.dispatchBulk (s : State) : State :=
  let sqs := (s.bulkInsts.map s.sqsOf).flatten
  let s := (s.each sqs fun s g => s.overChain g).stallBlocked sqs
  let el := s.eligibleBulk
  let s := s.raiseV el
  match s.leastV el with
  | some n =>
    match s.nextSq n with
    | some (g, _, l, c) =>
      let s := s.dispatchRun g n l c
      s.raiseV s.eligibleBulk
    | none => s
  | none => s

/-- One decision of the TC dispatcher for instance n; its jobs wait while its reservation is rebuilt (R226, R228). -/
def State.dispatchTc (s : State) (n : Fin 128) : State :=
  if (s.inst n).isTc then
    let s := (s.each (s.sqsOf n) fun s g => s.overChain g).stallBlocked (s.sqsOf n)
    match s.nextSq n with
    | some (g, _, l, c) => if s.rebuilding n then s else s.dispatchRun g n l c
    | none => s
  else s

/-- DISPATCH: one decision of the BULK dispatcher, or of the TC dispatcher for an instance. -/
def execDispatch (tc : Option (Fin 128)) (s : State) : Host.Outcome State Fault Refusal :=
  match tc with
  | none => .next s.dispatchBulk
  | some n => .next (s.dispatchTc n)

/-- R215: the next member of a chain may start: every earlier one has ended, and its writes have their responses; no rebuild and no
want of a sequencer holds it up (R226, R235). -/
def State.memberTurn (s : State) (j : Job) : Bool :=
  j.waiting && !s.unseated j && s.jobs.all (fun k => k.chain != j.chain || j.member ≤ k.member) &&
    s.fab.writes.all fun w => match w.what with
      | .data i _ => i < j.chain || j.id ≤ i
      | _ => true

def execChainMemberStart (id : Nat) (s : State) : Host.Outcome State Fault Refusal :=
  match s.job id with
  | some j => if s.memberTurn j && !s.superseded j then .next (s.startJob id) else .next s
  | none => .next s

/-- PAD at the head of an SQ: the counter advances, nothing else (R212). -/
def State.passPad (s : State) (g : Fin 512) : State :=
  let full := (s.sq g).full.isSome || 16 ≤ (s.sq g).cached
  (s.dropHead g).freedSlice g full

def execPad (g : Fin 512) (s : State) : Host.Outcome State Fault Refusal :=
  if (s.sq g).head = .pad ∧ s.mayDispatch g then .next (s.passPad g) else .next s

/-! ## The opcode rows: steps 1 to 6 of R194 -/

/-- Step 5 for the capacity that follows the key (R194, R208): the length required. -/
def keyNeed (j : Job) (x : Slot) : Option Nat :=
  if j.opcode = 0x0302 then some (56 + (x.key.length + 7) / 8 * 8 + 8)
  else if j.opcode = 0x0400 ∧ j.alg = 0x44 then some (x.key.length * 2 / 5)
  else none

/-- R121, R126: what else refuses a slot to KEY_WRAP and KEY_DELIVER_SEALED, the latter by the CONSUMERS of its dispatch (R149). -/
def State.opPolicy (s : State) (j : Job) (x : Slot) : Option Status :=
  if j.opcode = 0x0302 then
    if !x.pinned || x.sealedOnly || x.usage ≥ 2 ^ 31 || x.csrc == 1
        || (bit (byteAt j.raw 45) 0 && s.life.fwSvn < le j.raw 24 4) then some .keyPolicy
    else if (s.rootKey (byteAt j.raw 44)).isNone then some .keyNotReady else none
  else if j.opcode = 0x0304 then
    if !bit j.consumers (j.opspec % 16) || 32 < x.key.length then some .keyPolicy else none
  else none

/-- What refuses a resolved key: its attributes, then the capacity that follows it. -/
def State.keyFails (s : State) (j : Job) (x : Slot) : Option (Status × Nat) :=
  match s.opPolicy j x with
  | some st => some (st, j.keyResult)
  | none =>
    if j.slotRefused x then some (.keyPolicy, j.keyResult)
    else match keyNeed j x with
      | some n => if le j.raw 40 4 < n then some (.lengthLimit, n) else none
      | none => none

/-- The job takes slot i; then the checks that depend on it, and step 6. -/
def State.withSlot (s : State) (id i : Nat) : State :=
  match s.job id, s.keys.slot i with
  | some j, some x =>
    match s.keyFails j x with
    | some (st, r) => s.finish j st r
    | none => ((s.touch i).updJob id fun y => { y with key := some i, keyCopy := some x }).toLists id
  | _, _ => s

/-- The same for a path's key, which has no slot yet: none is allocated before step 7 (R194). (DEDUCED, log entry 26.) -/
def State.withPath (s : State) (id : Nat) (k : NewKey) : State :=
  match s.job id with
  | none => s
  | some j =>
    match s.keyFails j (s.unplacedKey j.inst k) with
    | some (st, r) => s.finish j st r
    | none => (s.updJob id fun y => { y with pend := some k, phase := .assigned }).toLists id

/-- An opcode row's checks: steps 1 to 5 of R194, then step 6 or the derivation unit. (DEDUCED, log entry 24.) -/
def State.begin (s : State) (id op : Nat) : State :=
  match s.job id with
  | none => s
  | some j =>
    if j.phase ≠ .assigned ∨ j.waiting ∨ j.opcode ≠ op ∨ s.unseated j then s
    else if s.superseded j then s.retire j .aborted 0
    else
      match s.checkEntry j with
      | some (st, r) => s.finish j st r
      | none =>
        match s.keyCheck j with
        | .none => s.toLists id
        | .fail st r => s.finish j st r
        | .slot i => (s.count 0x2014 1).withSlot id i
        | .derive => (s.updJob id fun x => { x with phase := .resolving }).count 0x2014 2

/-- NOP (R213): it completes OK with RESULT 0; a TC one waits for a rebuild (R226). -/
def State.runNop (s : State) (id : Nat) : State :=
  match s.job id with
  | none => s
  | some j =>
    if j.phase ≠ .assigned ∨ j.waiting ∨ j.opcode ≠ 1 ∨ s.unseated j then s
    else match s.checkEntry j with
      | some (st, r) => s.finish j st r
      | none => s.finish j .ok 0

def execNop (id : Nat) (s : State) : Host.Outcome State Fault Refusal := .next (s.runNop id)

/-! ## Slots that jobs make -/

/-- A job ends OK with a new slot, which later members of its chain may name (R195). -/
def State.yieldSlot (s : State) (j : Job) (i : Nat) : State :=
  let h := s.keys.handle i
  let s := s.setJobs (s.jobs.map fun k => if k.chain = j.chain ∧ j.member < k.member then { k with prev := some h } else k)
  s.finish j .ok h

/-- KEY_RESOLVE: the derivation unit finishes a path (R100 to R104, R112). Where no slot can be had the key is not ready. -/
def State.resolved (s : State) (j : Job) : State :=
  if j.stale then s.finish j .keyStale 0
  else
    match (if j.opcode = 0x0300 then none else s.transient j) with
    | some i => s.withSlot j.id i
    | none =>
      match s.derivePath j with
      | none => s.finish j .keyStale 0
      | some (k, s') =>
        match s'.place j.inst 1 with
        | none => s'.finish j .keyNotReady 0
        | some (at_, s'') =>
          if j.opcode = 0x0300 then (s''.install j.inst at_ k).yieldSlot j at_ else s'.withPath j.id k

/-! ## Poison in the key cache (R446) -/

/-- A pinned slot held poison: it is emptied, jobs that name it complete with POISONED_DATA, and its instance gets PRIVATE_ERROR. -/
def State.pinnedPoison (s : State) (i : Nat) (x : Slot) : State :=
  let s := s.each (s.jobs.filter fun j => j.key == some i && j.phase != .draining) fun s j => s.finish j .poisonedData 0
  (s.emptySlot i 8).failInst x.owner 3 0

/-- A transient slot held poison: it is emptied and its path, that of job j, resolved again into a slot of its own; the jobs that name
it go on with that. A path that no longer resolves leaves them KEY_STALE. (DEDUCED, log entry 26.) -/
def State.transientPoison (s : State) (j : Job) (i : Nat) : State :=
  let named := (s.jobs.filter fun k => k.key == some i).map (·.id)
  let s := s.setJobs (s.jobs.map fun k => if k.key = some i then { k with key := none } else k)
  let s := s.emptySlot i 8
  match s.derivePath j with
  | none => s.each named fun s id => s.finishId id .keyStale 0
  | some (k, s) =>
    match s.place j.inst 1 with
    | none => s.each named fun s id => s.finishId id .keyNotReady 0
    | some (at_, s) =>
      let s := s.install j.inst at_ k
      s.each named fun s id => s.updJob id fun x => { x with key := some at_ }

/-- The slot whose key job j runs under held poison: a pinned slot ends it; with a transient one it runs again from its checkpoint under
the key resolved anew. A key whose slot went with its root has no path to resolve (DEDUCED, log entry 26). -/
def State.keyPoison (s : State) (j : Job) : State :=
  match j.key with
  | none => s.finish j .poisonedData 0
  | some i =>
    match s.keys.slot i with
    | none => s.finish j .poisonedData 0
    | some x =>
      if x.pinned then s.pinnedPoison i x
      else
        let s := s.transientPoison j i
        match s.job j.id with
        | some j => s.runAgain j true
        | none => s

/-- The slot that the derivation unit looks up for job j: one that holds its path already, or the parent's. -/
def State.lookedUp (s : State) (j : Job) : Option (Nat × Slot) :=
  match (if j.opcode = 0x0300 then none else s.transient j) with
  | some i => (s.keys.slot i).map fun x => (i, x)
  | none =>
    match s.pathParent j with
    | .ok p => p
    | .error _ => none

/-- That slot held poison: a transient one is emptied, and the path resolved again with the rest of KEY_RESOLVE; a pinned parent ends the
job (R446). (DEDUCED, log entry 26.) -/
def State.lookupPoison (s : State) (j : Job) : State :=
  match s.lookedUp j with
  | none => s.resolved j
  | some (i, x) =>
    if x.pinned then (s.pinnedPoison i x).finishId j.id .poisonedData 0 else (s.transientPoison j i).resolved j

/-- A BULK request waits at the derivation unit behind a TC one (R224). -/
def State.deriveTurn (s : State) (j : Job) : Bool :=
  j.tc || s.jobs.all fun k => !(k.tc && k.phase == .resolving && !s.unseated k)

/-- KEY_RESOLVE; `bad`: the slot it looked up held poison. A job that waits for a rebuild or a sequencer does not go on (R226, R235). -/
def execKeyResolve (id : Nat) (bad : Bool) (s : State) : Host.Outcome State Fault Refusal :=
  match s.job id with
  | some j =>
    if j.phase = .resolving ∧ s.deriveTurn j ∧ s.unseated j = false then
      .next (if s.superseded j then s.retire j .aborted 0 else if bad then s.lookupPoison j else s.resolved j).serveWaiting
    else .next s
  | none => .next s

/-! ## Engines take turns (R237) -/

/-- A run of job j on engine e does not pass its comparison, or met poison (R254, R286, R302, R446). -/
def State.runFails (s : State) (j : Job) (e : Fin 36) (c : Compare) : State :=
  match c with
  | .agree => s
  | .differ => s.strike j e.val
  | .staging code off => s.poisonedRun j (location code off)
  | .hold => s.poisonedRun j 0
  | .context => s.finish j .poisonedData 0
  | .key => s.keyPoison j

/-- l turned so that x comes last. -/
def turnPast (x : Nat) (l : List Nat) : List Nat := (l.dropWhile (· != x)).drop 1 ++ l.takeWhile (· != x) ++ [x]

/-- The job whose quantum runs, also while its next input is fetched. -/
def State.turnOf (s : State) (e : Fin 36) : Option Nat :=
  (s.units.eng[e].serving.filter s.units.eng[e].contexts.contains).or (s.servedBy e)

/-- The engine turns from job i to its next context (R237); a lone one never yields. -/
def State.turn (s : State) (e : Fin 36) (i : Nat) : State :=
  if s.occupied e ≤ 1 ∨ s.units.eng[e].contexts.contains i = false then s
  else (s.updEng e fun g => { g with contexts := turnPast i g.contexts, serving := none }).latch e

/-- Block or rate bytes of a digest ALG, and the first block boundary at or after the next KiB of message (R237, R285). -/
def nextQuantum (alg off : Nat) : Nat :=
  let b := blockLen alg
  let at_ (k : Nat) : Nat := b * ceilDiv (1024 * k) b
  let k := off / 1024
  if off < at_ (k + 1) then (if off < at_ k then at_ k else at_ (k + 1)) else at_ (k + 2)

/-- A digest job reaches the boundary of a quantum, its copies compared so far (R278): its checkpoint is saved, and earlier
failures count for it no more (R254, R285, R287). -/
def State.digestQuantum (s : State) (j : Job) (e : Fin 36) (c : Compare) : State :=
  if s.superseded j then s.retire j .aborted 0
  else match s.compared e.val c with
    | .agree => s.updJob j.id fun k => { k with offset := min k.len (nextQuantum k.alg k.offset), failedOn := [] }
    | c => s.runFails j e c

/-- QUANTUM_BOUNDARY. A cipher engine's boundary is its checkpoint of CHUNK_COMPLETE (R237). -/
def State.quantum (s : State) (e : Fin 36) (c : Compare) : State :=
  match s.turnOf e with
  | none => s
  | some i =>
    let t := match s.job i with
      | some j => if (engineOf j.opcode == some EngineKind.de && j.ready) = true then s.digestQuantum j e c else s
      | none => s
    t.turn e i

def execQuantumBoundary (k : EngineKind) (e : Fin 16) (c : Compare) (s : State) : Host.Outcome State Fault Refusal :=
  match k with
  | .ce | .de =>
    match engNo k e.val with
    | some x => .next (s.quantum x c).serveWaiting
    | none => .next s
  | .lf | .el => .next s

end Sys2Proof.Machine
end

