-- ==== Sys2Proof/Machine/Symmetric.lean ====
section
/-! DEFINITION. The symmetric opcodes and the record-layer chains (R241 to R266): what a chunk yields, its release, the
tag's check, held and early-released jobs, and CHUNK_COMPLETE. -/

namespace Sys2Proof.Machine

/-! ## Fields -/

/-- IV_LEN bytes of IV (R203). -/
def Job.iv (j : Job) : Bytes := slice j.raw 64 (byteAt j.raw 51)
/-- TAG_LEN of the symmetric and of the protocol body. -/
def Job.tagLen (j : Job) : Nat := if j.layout = .proto then byteAt j.raw 60 else byteAt j.raw 50
/-- DTLS or ESN (R260). -/
def Job.variant (j : Job) : Bool := bit j.opspec 0
/-- The expected sequence number, 64 bits (R211). -/
def Job.seqIn (j : Job) : Nat := le j.raw 48 8
/-- SPI, as it stands in a packet (R265 step 6). -/
def Job.spi (j : Job) : Bytes := toBe 4 (le j.raw 56 4)

/-! ## Authenticated encryption by ALG -/

/-- Encrypt or decrypt a payload. -/
def aeadCrypt (alg : Nat) (key nonce data : Bytes) : Bytes :=
  match alg with
  | 0x02 => ccmCrypt key nonce data
  | 0x03 => chaCrypt key nonce data
  | _ => gcmCrypt key nonce data

/-- The tag over AAD, plaintext (CCM) or ciphertext. -/
def aeadTag (alg : Nat) (key nonce aad pt ct : Bytes) (n : Nat) : Bytes :=
  match alg with
  | 0x02 => ccmTag key nonce aad pt n
  | 0x03 => chaTag key nonce aad ct
  | _ => (gcmTag key nonce aad ct).take n

/-! ## Record layer: sequence numbers, headers, trailers (R261 to R266) -/

/-- The 64-bit number a TLS nonce is formed from (R261, R264); s is the sequence number of a seal. -/
def Job.recordNumber (j : Job) (s : Nat) : Nat := if j.variant then (j.opspec / 256) * 2 ^ 48 + s else s

/-- IV_BASE exclusive-ORed with a number, right-aligned in 12 bytes (R261 step 3). -/
def Job.tlsNonce (j : Job) (n : Nat) : Bytes := xorB (slice j.raw 64 12) (zeros 4 ++ toBe 8 n)

/-- The header that TLS13_SEAL writes, for n bytes after it (R261 step 2, R264). -/
def Job.sealHeader (j : Job) (s n : Nat) : Bytes :=
  if j.variant then BitVec.ofNat 8 (0x2C + j.opspec / 256 % 4) :: toBe 2 (s % 2 ^ 16) ++ toBe 2 n
  else [0x17#8, 0x03#8, 0x03#8] ++ toBe 2 n

/-- What follows the payload inside a sealed record or packet (R261 step 1, R265 step 4). -/
def Job.trailer (j : Job) : Bytes :=
  if j.opcode = 0x0601 then BitVec.ofNat 8 (byteAt j.raw 61) :: zeros (le j.raw 62 2)
  else
    let n := espPad j.len (le j.raw 62 2)
    ((List.range n).map fun i => BitVec.ofNat 8 (i + 1)) ++ [BitVec.ofNat 8 n, BitVec.ofNat 8 (j.opspec / 256)]

/-- The AAD of an ESP packet with sequence number q (R265 step 5). -/
def Job.espAad (j : Job) (q : Nat) : Bytes := j.spi ++ (if j.variant then toBe 8 q else toBe 4 q)

/-- Sequence number, nonce, header and AAD of a seal, from the invocation value drawn (R245, R261, R263 to R265). -/
def Job.sealFrame (j : Job) (x : Slot) (v : Nat) : Nat × Bytes × Bytes × Bytes :=
  if j.opcode = 0x0601 then
    let s := x.seqOf v
    let h := j.sealHeader s (j.len + j.trailer.length + 16)
    (s, j.tlsNonce (j.recordNumber s), h, h)
  else
    (v + 1, x.fixed ++ toBe 8 v, j.spi ++ toBe 4 (v + 1) ++ toBe 8 v, j.espAad (v + 1))

/-! ## Output so far -/

/-- The slot whose key the job runs under. -/
def Job.slotKey (j : Job) : Bytes :=
  match j.keyCopy with
  | some x => x.key
  | none => []

/-- Nonce or IV of a symmetric opcode (R245). -/
def Job.nonce (j : Job) : Bytes :=
  match j.keyCopy, j.drawn with
  | some x, some v => x.fixed ++ toBe 8 v
  | _, _ => j.iv

/-- The mode's output for the input held. -/
def Job.cipher (j : Job) : Bytes :=
  let k := j.slotKey
  let enc := j.opcode == 0x0110
  match j.alg with
  | 0x10 => aesCtr k j.iv j.src
  | 0x11 => if enc then cbcEnc k j.iv j.src else cbcDec k j.iv j.src
  | 0x12 => xts enc k j.iv j.src
  | _ => aeadCrypt j.alg k j.nonce j.src

/-- The tag of an AEAD or MAC job over the input held (R243, R245). -/
def Job.mac (j : Job) : Bytes :=
  match j.alg with
  | 0x20 => (cmac j.slotKey j.src).take j.tagLen
  | 0x21 => (gcmTag j.slotKey j.iv j.src []).take j.tagLen
  | _ =>
    if j.opcode = 0x0100 then aeadTag j.alg j.slotKey j.nonce j.aad j.src j.cipher j.tagLen
    else aeadTag j.alg j.slotKey j.nonce j.aad j.cipher j.src j.tagLen

/-- A sealed record or packet, or the part of it that the input held yields, and its sequence number. -/
def Job.sealed (j : Job) (last : Bool) : Bytes × Nat :=
  match j.keyCopy, j.drawn with
  | some x, some v =>
    let f := j.sealFrame x v
    let pt := if last then j.src ++ j.trailer else j.src
    let ct := aeadCrypt j.alg x.key f.2.1 pt
    (f.2.2.1 ++ ct ++ (if last then aeadTag j.alg x.key f.2.1 f.2.2.2 pt ct j.tagLen else []), f.1)
  | _, _ => ([], 0)

/-- Bytes of a seal's output that stand before its ciphertext. -/
def Job.headLen (j : Job) : Nat := if j.opcode = 0x0601 then 5 else if j.opcode = 0x0603 then 16 else 0

/-- Output bytes up to the present chunk's end. -/
def Job.outputTo (j : Job) : Bytes :=
  if j.opcode = 0x0601 ∨ j.opcode = 0x0603 then (j.sealed j.lastChunk).1
  else if isMac j.opcode then [] else j.cipher.take j.chunkEnd

/-- Output bytes before the present chunk. -/
def Job.emitted (j : Job) : Nat := if j.offset = 0 then 0 else j.headLen + j.offset

/-- The accesses of the present chunk's output (R242). (DEDUCED, log entry 25.) -/
def Job.chunkOuts (j : Job) : List Out := outs 3 j.dstFrags j.emitted (j.outputTo.drop j.emitted)

/-- With the last chunk: the tag (R203), then IV_WB or SEQ_WB (R220). (DEDUCED, log entry 25.) -/
def Job.tailOuts (j : Job) : List Out :=
  match j.opcode with
  | 0x0100 => outBuf 5 (le j.raw 56 8) j.mac ++ outBuf 6 (le j.raw 80 8) j.nonce
  | 0x0120 => outBuf 5 (le j.raw 56 8) j.mac
  | 0x0601 | 0x0603 => outBuf 6 (le j.raw 40 8) (toLe 8 (j.sealed true).2)
  | _ => []

/-- RESULT of a job that succeeds after releasing n bytes (R198, R261, R265). -/
def Job.okResult (j : Job) (n : Nat) : Nat :=
  match j.opcode with
  | 0x0120 => j.tagLen
  | 0x0601 | 0x0603 => protoNeed j.raw
  | _ => n

/-! ## Opening (R262, R264, R266) -/

/-- What the opening of a record finds: the tag or a check fails, or the bytes for DST. (DEDUCED, log entry 25.) -/
def Job.openTls (j : Job) : Option Bytes :=
  let first := byteAt j.src 0
  let wide := bit first 3
  let h := if j.variant then (if wide then 5 else 4) else 5
  let head := j.src.take h
  let body := j.src.drop h
  let ct := body.take (body.length - 16)
  let nonce := j.tlsNonce j.seqIn
  let pt := aeadCrypt j.alg j.slotKey nonce ct
  let n := ofBe (slice j.src (h - 2) 2)
  let headOk := if j.variant then
      first / 32 == 1 && !bit first 4 && bit first 2 && first % 4 == j.opspec / 256 % 4
        && (if wide then ofBe (slice j.src 1 2) == j.seqIn % 2 ^ 16 else byteAt j.src 1 == j.seqIn % 2 ^ 8)
    else head.take 3 == [0x17#8, 0x03#8, 0x03#8]
  let inner := (pt.reverse.dropWhile (· == 0#8)).reverse
  if aeadTag j.alg j.slotKey nonce head pt ct 16 = body.drop (body.length - 16) ∧ 16 ≤ body.length ∧ headOk
      ∧ n = j.len - h ∧ 17 ≤ n ∧ n ≤ 16640 ∧ inner ≠ [] then some inner
  else none

def Job.openEsp (j : Job) : Option Bytes :=
  match j.keyCopy with
  | none => none
  | some x =>
    let body := j.src.drop 16
    let ct := body.take (body.length - j.tagLen)
    let nonce := x.fixed ++ slice j.src 8 8
    let pt := aeadCrypt j.alg x.key nonce ct
    let pad := byteAt pt (pt.length - 2)
    let padding := slice pt (pt.length - 2 - pad) pad
    let aad := (j.src.take 4) ++ (if j.variant then toBe 4 (j.seqIn / 2 ^ 32) else []) ++ slice j.src 4 4
    if aeadTag j.alg x.key nonce aad pt ct j.tagLen = body.drop (body.length - j.tagLen)
        ∧ 16 + j.tagLen ≤ j.src.length ∧ j.src.take 4 = j.spi ∧ ofBe (slice j.src 4 4) = j.seqIn % 2 ^ 32
        ∧ pad + 2 ≤ pt.length ∧ padding = (List.range pad).map fun i => BitVec.ofNat 8 (i + 1) then
      some (pt.take (pt.length - 2 - pad) ++ [pt.getLastD 0#8])
    else none

/-- What a held job yields once its tag is checked (R250). -/
def Job.opened (j : Job) : Option Bytes :=
  match j.opcode with
  | 0x0600 => j.openTls
  | 0x0602 => j.openEsp
  | _ => if j.mac = j.tagIn then some j.cipher else none

/-- Capacity of the destination. -/
def Job.capacity (j : Job) : Nat := (j.dstFrags.map (·.len)).sum

/-! ## Endings -/

/-- A held job after its last chunk (R250): a match writes the whole output, checked as a whole. -/
def State.endHeld (s : State) (j : Job) : State :=
  match j.opened with
  | none => s.finish j .authFail 0
  | some b =>
    if j.capacity < b.length then s.finish j .lengthLimit b.length
    else
      let l := outs 3 j.dstFrags 0 b
      s.writeEnd j l (if j.layout = .proto then b.length else outBytes l)

/-- SCRUB (R252): zeros over the released bytes; a refused write is skipped and counted. -/
def State.scrub (s : State) (j : Job) : State :=
  s.each (outs 3 j.dstFrags 0 (zeros j.len)) fun s o =>
    if s.granted j.inst o.2.2.1 o.2.2.2.length true then (s.countCheck true).issueData j o
    else (s.countCheck false).countInst j.inst 6

/-- The tag of an early-released job after its last chunk (R251, R252). -/
def State.endEarly (s : State) (j : Job) (released : Nat) : State :=
  if j.mac = j.tagIn then s.finish j .ok released
  else (if j.scrub then s.scrub j else s).finish j .authFailReleased released

/-- The last chunk: its output with the tag and write-backs, checked together before any is issued (R218, R242). (DEDUCED, log entry 25.) -/
def State.lastChunk (s : State) (j : Job) : State :=
  if j.opcode = 0x0121 then
    if j.mac = j.tagIn then s.finish j .ok 1 else s.finish j .authFail 2
  else
    let l := j.chunkOuts
    let r := s.writeAll j (l ++ j.tailOuts)
    let released := j.released + outBytes l
    match r.1 with
    | some o => r.2.finish j .regionViolation (location o.1 o.2.1)
    | none =>
      let k := { j with released := released }
      let s := r.2.updJob j.id fun _ => k
      if j.opcode = 0x0101 then s.endEarly k released else s.finish k .ok (j.okResult released)

/-- A chunk other than the last: written, its checkpoint saved, the next fetched (R242). (DEDUCED, log entry 25.) -/
def State.nextChunk (s : State) (j : Job) : State :=
  let l := j.chunkOuts
  let r := s.writeAll j l
  match r.1 with
  | some o => r.2.finish j .regionViolation (location o.1 o.2.1)
  | none =>
    (r.2.updJob j.id fun k => { k with released := j.released + outBytes l, offset := j.chunkEnd, failedOn := [] }).goOn j.id

/-- A chunk's comparison has passed (R242, R250). A held job runs again from its first chunk (R253), so its failed runs count on to its
end (R254). -/
def State.chunkPassed (s : State) (j : Job) (e : Fin 36) : State :=
  let s := s.countBy (engCounter e) 2 (j.chunkEnd - j.offset)
  if j.held then
    if j.lastChunk then s.endHeld j
    else (s.updJob j.id fun k => { k with offset := j.chunkEnd }).goOn j.id
  else if j.lastChunk then s.lastChunk j else s.nextChunk j

/-- A chunk ends on engine e (R242, R254, R446); a superseded job writes nothing more (R142). -/
def State.chunkEnds (s : State) (j : Job) (e : Fin 36) (c : Compare) : State :=
  if s.superseded j then s.retire j .aborted 0
  else match s.compared e.val c with
    | .agree => s.chunkPassed j e
    | c => s.runFails j e c

/-- The engine a job holds a context on, and serves now (R237). -/
def State.onEngine (s : State) (j : Job) : Option (Fin 36) :=
  match j.engine with
  | some e => if h : e < 36 then (if s.servedBy ⟨e, h⟩ = some j.id then some ⟨e, h⟩ else none) else none
  | none => none

/-- CHUNK_COMPLETE: the engine that serves job id ends a chunk of it. -/
def execChunkComplete (id : Nat) (c : Compare) (s : State) : Host.Outcome State Fault Refusal :=
  match s.job id with
  | some j =>
    match engineOf j.opcode, s.onEngine j with
    | some .ce, some e => .next ((s.latch e).chunkEnds j e c).serveWaiting
    | _, _ => .next s
  | none => .next s

/-! ## The opcode rows -/

def execAeadEnc (id : Nat) (s : State) : Host.Outcome State Fault Refusal := .next (s.begin id 0x0100).serveWaiting
def execAeadDec (id : Nat) (s : State) : Host.Outcome State Fault Refusal := .next (s.begin id 0x0101).serveWaiting
def execCipherEnc (id : Nat) (s : State) : Host.Outcome State Fault Refusal := .next (s.begin id 0x0110).serveWaiting
def execCipherDec (id : Nat) (s : State) : Host.Outcome State Fault Refusal := .next (s.begin id 0x0111).serveWaiting
def execMacGen (id : Nat) (s : State) : Host.Outcome State Fault Refusal := .next (s.begin id 0x0120).serveWaiting
def execMacVerify (id : Nat) (s : State) : Host.Outcome State Fault Refusal := .next (s.begin id 0x0121).serveWaiting
def execTls13Open (id : Nat) (s : State) : Host.Outcome State Fault Refusal := .next (s.begin id 0x0600).serveWaiting
def execTls13Seal (id : Nat) (s : State) : Host.Outcome State Fault Refusal := .next (s.begin id 0x0601).serveWaiting
def execEspIn (id : Nat) (s : State) : Host.Outcome State Fault Refusal := .next (s.begin id 0x0602).serveWaiting
def execEspOut (id : Nat) (s : State) : Host.Outcome State Fault Refusal := .next (s.begin id 0x0603).serveWaiting

end Sys2Proof.Machine
end

