-- ==== Sys2Proof/Machine/Digest.lean ====
section
/-! DEFINITION. Ring digest jobs (R278 to R287): HASH, HMAC_GEN, their compares, and DIGEST_JOB_END. -/

namespace Sys2Proof.Machine

/-- OUT_LEN of a digest entry (R206). -/
def Job.outLen (j : Job) : Nat := le j.raw 40 2

/-- The digest or HMAC of a job's message, cut to OUT_LEN (R282, R283). -/
def Job.formed (j : Job) : Bytes :=
  if j.opcode = 0x0202 ∨ j.opcode = 0x0203 then (hmac j.alg j.slotKey j.src).take j.outLen
  else (digest j.alg j.outLen j.src).take j.outLen

/-- The final comparison of R278 has passed (R282, R283). -/
def State.digestFormed (s : State) (j : Job) : State :=
  if j.compares then
    if j.formed = j.expect then s.finish j .ok 1 else s.finish j .authFail 2
  else s.writeEnd j (outs 3 j.dstFrags 0 j.formed) j.outLen

/-- A digest job ends its run on engine e (R286, R287). -/
def State.digestEnds (s : State) (j : Job) (e : Fin 36) (c : Compare) : State :=
  if s.superseded j then s.retire j .aborted 0
  else match s.compared e.val c with
    | .agree => (s.countBy (engCounter e) 2 j.len).digestFormed j
    | c => s.runFails j e c

/-- DIGEST_JOB_END: the engine that serves job id has run it to its end. -/
def execDigestJobEnd (id : Nat) (c : Compare) (s : State) : Host.Outcome State Fault Refusal :=
  match s.job id with
  | some j =>
    match engineOf j.opcode, s.onEngine j with
    | some .de, some e => .next ((s.latch e).digestEnds j e c).serveWaiting
    | _, _ => .next s
  | none => .next s

def execHash (id : Nat) (s : State) : Host.Outcome State Fault Refusal := .next (s.begin id 0x0200).serveWaiting
def execHashCompare (id : Nat) (s : State) : Host.Outcome State Fault Refusal := .next (s.begin id 0x0201).serveWaiting
def execHmacGen (id : Nat) (s : State) : Host.Outcome State Fault Refusal := .next (s.begin id 0x0202).serveWaiting
def execHmacVerify (id : Nat) (s : State) : Host.Outcome State Fault Refusal := .next (s.begin id 0x0203).serveWaiting

end Sys2Proof.Machine
end

