-- ==== Sys2Proof/Machine/DirectFeed.lean ====
section
/-! DEFINITION. Direct feed (R290 to R300): the session of an instance page, its registers, and DF_DONE. -/

namespace Sys2Proof.Machine

/-- Bytes that may be written before the input buffer is full; 0 while the session holds none (R291, R296). (DEDUCED, log entry 15.) -/
def Df.free (d : Df) : Nat := if d.buffer.isSome then (1000 - d.buffered) / 8 * 8 else 0

/-- STATE codes (R291). -/
def DfState.code : DfState → Nat
  | .idle => 0
  | .openS => 1
  | .busy => 2
  | .done => 3
  | .failed => 4

def State.updDf (s : State) (n : Fin 128) (f : Df → Df) : State := s.updInst n fun i => { i with df := f i.df }

/-! ## DF_CTX and DF_START -/

/-- DF_CTX (R291): no effect in OPEN or BUSY; its writable fields lie in bits 31:0. -/
def Df.writeCtx (d : Df) (v : Nat) : Df :=
  if d.running then d else { d with alg := v % 256, compare := bit v 8, outLen := bits v 22 16 }

def execDfCtxWrite (a : Tgt) (n : Fin 128) (v : Word) (s : State) : Host.Outcome State Fault Refusal :=
  .next (s.regWrite a (some n) fun s => if a.hasLow then s.updDf n fun d => d.writeCtx v.toNat else s)

/-- ALG, COMPARE and OUT_LEN obey R279 and R280 for direct feed, with or without a key (R296). -/
def Df.setupOk (d : Df) (keyed : Bool) : Bool :=
  (opAlgs (if keyed then 0x0202 else 0x0200)).contains d.alg &&
    if d.compare then 4 ≤ d.outLen && d.outLen ≤ (if isShake d.alg then 64 else digestLen d.alg)
    else if isShake d.alg then 1 ≤ d.outLen && d.outLen ≤ 64 else d.outLen == digestLen d.alg

/-- The handle names a slot of n that a slot move has installed but not yet released: its key is not available (R156, R298). (DEDUCED, log entry 15.) -/
def State.heldSlot (s : State) (n : Fin 128) (h : Nat) : Bool :=
  match s.keys.slot (h % 8192) with
  | some x => x.movedIn && x.owner == n && h / 8192 % 4096 == s.keys.gen (h % 8192)
  | none => false

/-- The slot an HMAC session resolves (R111, R114, R296, R298): none for a digest, or the failure code. (DEDUCED, log entry 15.) -/
def State.dfKey (s : State) (n : Fin 128) (h : Nat) : Except Nat (Option Nat) :=
  if h = 0 then .ok none
  else if s.heldSlot n h then .error 7
  else match s.handleSlot n h with
    | .error .keyPolicy => .error 6
    | .error _ => .error 5
    | .ok (i, x) =>
      if x.evicting.isSome then .error 5
      else if x.ktype = 3 ∧ x.usage = 0x13 ∧ x.sealedOnly = false then .ok (some i) else .error 6

/-- The BULK digest engine that takes a session (R236, R296). -/
def State.dfEngine (s : State) (avoid : List Nat) : Option (Fin 36) :=
  s.leastBusy ((s.engines .de none).filter fun e => s.occupied e < contextCap .de false && !avoid.contains e.val)

/-- The lowest free direct-feed buffer of the 32 (R296). -/
def State.dfBuffer (s : State) : Option Nat :=
  (List.range 32).find? fun b => s.insts.all fun i => i.df.buffer != some b

/-- DF_START with ABORT 0 (R292, R296, R298). -/
def State.dfStart (s : State) (n : Fin 128) (total h : Nat) : State :=
  let s := s.updDf n Df.idle
  let fail (err : Nat) : State := s.updDf n fun d => d.fail err 0
  if (s.inst n).state ≠ .active ∨ (s.inst n).df.setupOk (h != 0) = false then fail 4
  else match s.dfKey n h with
    | .error err => fail err
    | .ok key =>
      match s.dfEngine [], s.dfBuffer with
      | some e, some b =>
        ((s.loadKey key).updDf n fun d =>
          { d with state := .openS, total := total, key := key, engine := some e.val, buffer := some b }).count (engCounter e) 1
      | _, _ => fail 3

/-- A write of DF_START (R292). -/
def State.writeDfStart (s : State) (n : Fin 128) (v : Word) : State :=
  if bit v.toNat 24 then s.updDf n Df.idle else s.dfStart n (bits v.toNat 23 0) (bits v.toNat 63 32)

def execDfStart (a : Tgt) (n : Fin 128) (v : Word) (s : State) : Host.Outcome State Fault Refusal :=
  .next (s.wholeWrite a (some n) (·.writeDfStart n v))

/-- DF_ABORT: DF_START written with ABORT 1 (R292). -/
def execDfAbort (a : Tgt) (n : Fin 128) (s : State) : Host.Outcome State Fault Refusal :=
  .next (s.wholeWrite a (some n) fun s => s.updDf n Df.idle)

/-! ## DF_DATA, DF_LAST, DF_EXPECT -/

/-- A write in a state that takes none is ignored and counted (R294, R297). -/
def State.dfIgnored (s : State) (n : Fin 128) : State := s.countInst n 8

/-- Message bytes join the session (R297); the session fails with OVERRUN or, past TOTAL, with LENGTH_MISMATCH. -/
def Df.accept (d : Df) (b : Bytes) : Df :=
  if d.free < 8 then d.fail 2 0
  else
    let m := d.msg ++ b
    if d.total < m.length then d.fail 1 m.length else { d with msg := m, buffered := d.buffered + b.length }

/-- A word enters the session's buffer, one of the crossing FIFOs 320 to 351; poison fails the session (R298, R447, R448). -/
def State.dfWord (s : State) (n : Fin 128) (f : Df → Df) : State :=
  match (s.inst n).df.buffer with
  | some b =>
    let w := s.fifoWord (320 + b)
    w.2.updDf n fun d => if w.1 then d.fail 8 0 else f d
  | none => s.updDf n f

/-- A write of DF_DATA (R293, R297). -/
def State.writeDfData (s : State) (n : Fin 128) (v : Word) : State :=
  if (s.inst n).df.state = .openS then s.dfWord n fun d => d.accept (toLe 8 v.toNat) else s.dfIgnored n

def execDfData (a : Tgt) (n : Fin 128) (v : Word) (s : State) : Host.Outcome State Fault Refusal :=
  .next (s.wholeWrite a (some n) (·.writeDfData n v))

/-- Every DF_EXPECT register that the compare needs has been written (R298). -/
def Df.expectOk (d : Df) : Bool := !d.compare || (d.expect.toList.take (ceilDiv d.outLen 8)).all (·.isSome)

/-- The end of the message (R297, R298): its length, then the expected bytes. -/
def Df.last (d : Df) (b : Bytes) : Df :=
  let d := d.accept b
  if d.state ≠ .openS then d
  else if d.msg.length ≠ d.total then d.fail 1 d.msg.length
  else if d.expectOk then { d with state := .busy } else d.fail 4 0

/-- A write of DF_LAST (R293, R297). -/
def State.writeDfLast (s : State) (n : Fin 128) (v : Word) : State :=
  if (s.inst n).df.state = .openS then s.dfWord n fun d => d.last (toLe (bits v.toNat 58 56) v.toNat) else s.dfIgnored n

def execDfLast (a : Tgt) (n : Fin 128) (v : Word) (s : State) : Host.Outcome State Fault Refusal :=
  .next (s.wholeWrite a (some n) (·.writeDfLast n v))

/-- A write of DF_EXPECT_w (R294). -/
def State.writeDfExpect (s : State) (n : Fin 128) (w : Fin 8) (v : Word) : State :=
  if (s.inst n).df.state = .openS ∧ (s.inst n).df.compare then
    s.updDf n fun d => { d with expect := d.expect.set w (some v) }
  else s.dfIgnored n

def execDfExpect (a : Tgt) (n : Fin 128) (w : Fin 8) (v : Word) (s : State) : Host.Outcome State Fault Refusal :=
  .next (s.wholeWrite a (some n) (·.writeDfExpect n w v))

/-! ## The end of a session -/

/-- The key of an HMAC session. -/
def State.dfKeyBytes (s : State) (d : Df) : Option Bytes :=
  match d.key with
  | some i => (s.keys.slot i).map Slot.key
  | none => none

/-- The digest or HMAC of the session's message, cut to OUT_LEN. -/
def Df.formed (d : Df) (key : Option Bytes) : Bytes :=
  match key with
  | some k => (hmac d.alg k d.msg).take d.outLen
  | none => (digest d.alg d.outLen d.msg).take d.outLen

/-- DF_RESULT of R294: the result bytes, or the verdict. -/
def Df.resultOf (d : Df) (out : Bytes) : Vector Word 8 :=
  if d.compare then
    let want := (((d.expect.toList.map fun w => toLe 8 (w.getD 0#64).toNat).flatten).take d.outLen)
    (Vector.replicate 8 0#64).set 0 (if out = want then 1#64 else 2#64)
  else Vector.ofFn fun k => BitVec.ofNat 64 (le (padTo 64 out) (8 * k.val) 8)

/-- The result is formed: DONE, its context and buffer returned (R295); a comparison leaves no operand behind (R284). -/
def Df.done (d : Df) (key : Option Bytes) : Df :=
  { d with state := .done, result := d.resultOf (d.formed key), msg := [], expect := Vector.replicate 8 none, buffered := 0
           key := none, engine := none, buffer := none, failedOn := [] }

/-- A failed run counts against engine e (R254, R287). (DEDUCED, log entry 37.) -/
def State.dfStrike (s : State) (e : Nat) : State :=
  if h : e < 36 then
    let s := s.updEng ⟨e, h⟩ fun g => { g with strikes := g.strikes + 1, inject := false }
    (s.updUnits fun u => { u with misses := u.misses ++ [(e, s.now)] }).count (engCounter ⟨e, h⟩) 3
  else s

/-- The session goes on from its checkpoint on an engine other than these, its key loaded there (R113); it waits while they have no
context free (R236), and with none left it fails with ENGINE_FAULT (R298, R299). -/
def State.dfMove (s : State) (n : Fin 128) (avoid : List Nat) : State :=
  match s.dfEngine avoid with
  | some g => (s.loadKey (s.inst n).df.key).updDf n fun d => { d with engine := some g.val }
  | none =>
    if (s.engines .de none).all fun e => avoid.contains e.val then s.updDf n fun d => d.fail 9 0
    else s.updDf n fun d => { d with engine := none }

/-- A block fails its comparison: a strike, and the session moves; after three failed runs it fails (R254, R287, R299). -/
def State.dfMismatch (s : State) (n : Fin 128) : State :=
  match (s.inst n).df.engine with
  | none => s
  | some e =>
    let s := (s.dfStrike e).updDf n fun d => { d with failedOn := d.failedOn ++ [e] }
    let failed := (s.inst n).df.failedOn
    if 3 ≤ failed.length then s.updDf n fun d => d.fail 9 0 else s.dfMove n failed

/-- The result of a session is formed on its engine, unless a fault injected there makes the comparison fail (R387). -/
def State.dfFormed (s : State) (n : Fin 128) : State :=
  let d := (s.inst n).df
  match d.engine with
  | none => s
  | some g =>
    if s.compared g .agree = Compare.differ then s.dfMismatch n
    else
      let s := if h : g < 36 then s.countBy (engCounter ⟨g, h⟩) 2 d.msg.length else s
      s.updDf n fun d => d.done (s.dfKeyBytes d)

/-- DF_DONE (R295, R298, R299): the result, a block whose copies disagree, three runs of a block that disagree, or poison. -/
def State.dfDone (s : State) (n : Fin 128) (e : DfEnd) : State :=
  let d := (s.inst n).df
  match e with
  | .formed => if d.state = .busy then s.dfFormed n else s
  | .mismatch => if d.running then s.dfMismatch n else s
  | .threeDisagreed =>
    if d.running then (((s.dfMismatch n).dfMismatch n).dfMismatch n).updDf n fun d => if d.running then d.fail 9 0 else d else s
  | .poisoned => if d.running then s.updDf n fun d => d.fail 8 0 else s

def execDfDone (n : Fin 128) (e : DfEnd) (s : State) : Host.Outcome State Fault Refusal :=
  .next (s.dfDone n e).serveWaiting

/-- The session runs, but waits for an engine (R236, R299). -/
def Df.waits (d : Df) : Bool := d.running && d.engine.isNone

/-- An idle step lets every session's engine absorb what its buffer holds, the blocks passing their comparison (DEDUCED, log entry 15);
a session that waits for an engine takes one that has become free. (DESIGN CHOICE, log entry 3.) -/
def State.dfAbsorb (s : State) : State :=
  let s := { s with insts := s.insts.map fun (i : Inst) => if i.df.waits then i else { i with df := { i.df with buffered := 0, failedOn := [] } } }
  s.each (allInst.filter fun n => (s.inst n).df.waits) fun s n => s.dfMove n (s.inst n).df.failedOn

end Sys2Proof.Machine
end

