-- ==== Sys2Proof/Machine/Page.lean ====
section
/-! DEFINITION. Writes to the instance page's error and fence registers (R139, R140), the dirty-page log (R150 to
R153), posted writes' responses (R59), the region table's registers and fence (R327 to R337), and counter snapshots
(R462 to R464). -/

namespace Sys2Proof.Machine

/-! ## INST_ERR and FENCE -/

/-- R139: CLR clears CODE, MORE and PAGE. -/
def State.clearErr (s : State) (n : Fin 128) : State :=
  s.updInst n fun i => { i with errCode := 0, errMore := false, errPage := 0 }

def execInstErrClr (a : Tgt) (n : Fin 128) (s : State) : Host.Outcome State Fault Refusal :=
  .next (s.regWrite a (some n) fun s => if a.hasLow then s.clearErr n else s)

/-- R140: a drain covers every access issued for the instance so far. -/
def State.drain (s : State) (n : Fin 128) : State := s.updInst n fun i => { i with fence := some s.fab.nextId }

def execDrain (a : Tgt) (n : Fin 128) (s : State) : Host.Outcome State Fault Refusal :=
  .next (s.regWrite a (some n) fun s => if a.hasLow then s.drain n else s)

/-- R140, R152: the other bank becomes active, with an implied drain. -/
def State.switchBank (s : State) (n : Fin 128) : State :=
  (s.updInst n fun i => { i with logBank := !i.logBank }).drain n

def execSwitch (a : Tgt) (n : Fin 128) (s : State) : Host.Outcome State Fault Refusal :=
  .next (s.regWrite a (some n) fun s => if a.hasLow then s.switchBank n else s)

/-- Every write of n below an identity has its response, and its log bit is visible. -/
def State.drained (s : State) (n : Fin 128) (b : Nat) : Bool :=
  s.fab.writes.all (fun w => w.inst != n || w.what.isLog || b ≤ w.id)
    && (s.inst n).logQ.all (fun l => b ≤ l.write) && (s.inst n).logOp.all fun o => b ≤ o.bit.write

/-- DRAIN_COMPLETE (R140). -/
def execDrainComplete (n : Fin 128) (s : State) : Host.Outcome State Fault Refusal :=
  match (s.inst n).fence with
  | some b => if s.drained n b then .next (s.updInst n fun i => { i with fence := none }) else .next s
  | none => .next s

/-! ## The dirty-page log -/

/-- Address of the bank line that holds a page's bit (R150, R151). -/
def Inst.logLine (i : Inst) (b : LogBit) : Nat :=
  i.logBase.toNat + (if b.bank then i.logPages / 8 else 0) + b.page / 8 / 64 * 64

/-- An error of a ring or log access: a notice that fails the instance, or RESET_WRITE_ERROR while RESETTING (R144). -/
def State.lateFault (s : State) (n : Fin 128) (addr : Nat) : State :=
  if (s.inst n).state = .resetting then s.notice n 5 addr
  else s.failInst n 1 addr

/-- Start the next log update, its line read first (R151); one the region table refuses gives RING_WRITE_REFUSED
(R334). The first argument bounds the recursion. (DEDUCED, log entry 39.) -/
def startLog : Nat → State → Fin 128 → State
  | 0, s, _ => s
  | k + 1, s, n =>
    let i := s.inst n
    match i.logOp, i.logQ with
    | none, b :: rest =>
      let line := i.logLine b
      let ok := s.granted n line 64 false && s.granted n line 64 true
      let s := (s.countCheck ok).updInst n fun i => { i with logQ := rest }
      if ok then
        let r := s.issueRead n (homePort n) line 64 (.log n)
        r.2.updInst n fun i => { i with logOp := some ⟨b, line, r.1, r.1, false⟩ }
      else startLog k (s.failInst n 2 line) n
    | _, _ => s

def State.runLog (s : State) (n : Fin 128) : State := startLog ((s.inst n).logQ.length + 1) s n

/-- R150, R151: once a logged write has its response, its page's bit is to be set in the active bank; a write outside
the span sets LOG_OVERFLOW and is counted. (DEDUCED, log entry 39.) -/
def State.logWrite (s : State) (w : Wr) : State :=
  if w.logged then
    let i := s.inst w.inst
    let low := i.logLow.toNat
    if low ≤ w.addr ∧ w.addr < low + i.logPages * 4096 then
      (s.updInst w.inst fun i => { i with logQ := i.logQ ++ [⟨w.id, i.logBank, (w.addr - low) / 4096⟩] }).runLog w.inst
    else (s.updInst w.inst fun i => { i with logOverflow := true }).countInst w.inst 5
  else s

/-- Set bit p mod 8 of byte p / 8 in a line that starts at byte p / 8 / 64 × 64 (R150). -/
def setLogBit (line : Bytes) (page : Nat) : Bytes :=
  line.modify (page / 8 % 64) fun x => x ||| BitVec.ofNat 8 (2 ^ (page % 8))

/-- The line read of a log update returns (R151). -/
def State.logRead (s : State) (n : Fin 128) (beats : List Beat) : State :=
  match (s.inst n).logOp with
  | some o =>
    if worst beats = .ok then
      let r := s.issueWrite n (homePort n) o.line (setLogBit (padTo 64 (beatData beats)) o.bit.page) (.log n)
      r.2.updInst n fun i => { i with logOp := some { o with id := r.1, writing := true } }
    else
      let s := s.updInst n fun i => { i with logOp := none, logOverflow := true }
      (s.lateFault n o.line).runLog n
  | none => s

/-! ## Posted writes' responses -/

/-- What follows a response, by what the write was. -/
def State.wrote (s : State) (w : Wr) : State :=
  match w.what with
  | .data j _ =>
    match s.job j with
    | some k =>
      match k.phase, k.ending with
      | .draining, some (.aborted, _) => s.settleAbandoned k.chain
      | .draining, some (st, r) => if s.dataOut j then s else (s.endJob k st r).settleAbandoned k.chain
      | _, _ => s
    | none => s
  | .completion q => s.updCq q fun c => { c with acks := c.acks.filter (· != w.id) }
  | .writeBack g =>
    if (s.sq g).wbFlight = some w.id then
      let s := s.updSq g fun q => { q with wbFlight := none }
      if (s.sq g).wbDue then s.writeBack g else s
    else s
  | .log n => (s.updInst n fun i => { i with logOp := none }).runLog n

/-- An error response to a write: a notice that fails its instance (R59, R340); where it was a bank line's, LOG_OVERFLOW too (R151). -/
def State.writeFails (s : State) (w : Wr) : State :=
  let s := if w.what.isLog then s.updInst w.inst fun i => { i with logOverflow := true } else s
  (s.count (0x2020 + w.port) 3).lateFault w.inst w.addr

/-- A posted write's response (R59, R340): a code other than OK, POISON included, is an error response. (DEDUCED, log entry 39.) -/
def State.writeResponse (s : State) (w : Wr) (r : Resp) : State :=
  let x := s.fifoResp w r
  let s := x.2.writeDone w
  let s := if x.1 = .ok then s else s.writeFails w
  (s.logWrite w).wrote w

/-! ## Region table -/

/-- Writable bits of RT_ADDR and RT_ATTR (R328, R329). -/
def rtAddrMask : Word := 0x000FFFFFFFFFF000#64
def rtAttrMask : Word := 0x000000003FFFFF07#64

/-- The geometry check of R330: SIZE 12 to 40, and the region ends at or below 2^52. -/
def goodGeometry (addr attr : Word) : Bool :=
  let size := bits attr.toNat 29 24
  12 ≤ size && size ≤ 40 && bits addr.toNat 51 12 * 4096 + 2 ^ size ≤ 2 ^ 52

/-- The value RT_ATTR takes from a checked write of v (R330). -/
def checkAttr (addr old v : Word) : Word :=
  let w := v &&& rtAttrMask
  if bit v.toNat 0 then
    if goodGeometry addr v then w else (w &&& ~~~1#64) ||| 8#64
  else w ||| (old &&& 8#64)

/-- RT_ADDR (R328): refused while EN is 1. -/
def State.writeRtAddr (s : State) (a : Tgt) (e : Fin 1024) (v : Word) : State :=
  let x := s.rt.entries[e]
  if x.en then s.portError
  else s.updRt fun r => { r with entries := r.entries.set e { x with addr := merge a.width x.addr v &&& rtAddrMask } }

def execRtAddrWrite (a : Tgt) (e : Fin 1024) (v : Word) (s : State) : Host.Outcome State Fault Refusal :=
  .next (s.rtWrite a fun s => s.writeRtAddr a e v)

/-- RT_ATTR (R329, R330): a 32-bit write to bits 63:32 changes no checked field and is not checked. -/
def State.writeRtAttr (s : State) (a : Tgt) (e : Fin 1024) (v : Word) : State :=
  let x := s.rt.entries[e]
  if a.width = .high then s
  else s.updRt fun r => { r with entries := r.entries.set e { x with attr := checkAttr x.addr x.attr (merge a.width x.attr v) } }

def execRtAttrWrite (a : Tgt) (e : Fin 1024) (v : Word) (s : State) : Host.Outcome State Fault Refusal :=
  .next (s.rtWrite a fun s => s.writeRtAttr a e v)

/-- TABLE_FENCE (R337): covers every access checked so far. -/
def State.tableFence (s : State) : State := s.updRt fun r => { r with fence := some s.fab.nextId }

def execTableFence (a : Tgt) (s : State) : Host.Outcome State Fault Refusal :=
  .next (s.regWrite a none fun s => if a.hasLow then s.tableFence else s)

/-- Every access that was checked with an identity below b has finished (R337); a log update's write was checked with its read. -/
def State.finished (s : State) (b : Nat) : Bool :=
  s.fab.reads.all (fun r => b ≤ r.id) && s.fab.writes.all (fun w => b ≤ w.id)
    && allInst.all fun n => (s.inst n).logOp.all fun o => b ≤ o.chk

def execTableFenceComplete (s : State) : Host.Outcome State Fault Refusal :=
  match s.rt.fence with
  | some b => if s.finished b then .next (s.updRt fun r => { r with fence := none }) else .next s
  | none => .next s

/-! ## Snapshots -/

/-- The strobe of a snapshot: every counter latches (R463; DEDUCED, log entry 9: an event after the strobe is not counted). -/
def State.strobe (s : State) : State :=
  s.updCnt fun c => { c with busy := true, latched := c.now
                             strobe := if s.pins.tbValid then s.pins.tbTime else 0, strobeOk := s.pins.tbValid }

/-- A request while BUSY becomes one pending request (R462). (DEDUCED, log entry 9.) -/
def State.requestSnap (s : State) : State :=
  if s.cnt.busy then s.updCnt fun c => { c with pending := true } else s.strobe

def execSnapshotRequest (a : Tgt) (s : State) : Host.Outcome State Fault Refusal :=
  .next (s.rtWrite a fun s => if a.hasLow then s.requestSnap else s)

/-- SNAPSHOT_PERIOD (R462): PERIOD milliseconds have passed. -/
def execSnapshotPeriod (s : State) : Host.Outcome State Fault Refusal :=
  if s.alive ∧ s.cnt.period ≠ 0 then .next s.requestSnap else .next s

/-- SNAPSHOT_DONE (R464): the bank not in use is filled, and serves reads from now on, all in one step; a counter whose word there
holds poison (`bad`: index and subindex) reads all-ones until the next snapshot (R446). A batch in process goes on with the bank it began with (R465). FIFO occupancies are free values (DESIGN
CHOICE, log entry 4). (DEDUCED, log entry 9.) -/
def State.finishSnap (s : State) (bad : List (Nat × Nat)) : State :=
  let s := s.updDict fun d => { d with batch := d.batch.map fun b => { b with view := b.view.or (some s.cnt) } }
  let s := s.updCnt fun c =>
    let l := bad.foldl (fun l p => assocSet l (cntKey p.1 p.2) (2 ^ 64 - 1)) c.latched
    { c with bank0 := if c.bank then l else c.bank0, bank1 := if c.bank then c.bank1 else l
             seq := (c.seq + 1) % 2 ^ 64, time := c.strobe, timeOk := c.strobeOk, bank := !c.bank, busy := false
             fifo := s.free }
  let s := { s with free := s.free + 768 }
  if s.cnt.pending then (s.updCnt fun c => { c with pending := false }).strobe else s

def execSnapshotDone (bad : List (Nat × Nat)) (s : State) : Host.Outcome State Fault Refusal :=
  if s.cnt.busy then .next (s.finishSnap bad) else .next s

end Sys2Proof.Machine
end

