-- ==== Sys2Proof/Machine/PkMath.lean ====
section
/-! DEFINITION. Modular arithmetic, elliptic curves, RSA and EdDSA, as R304 to R307, R314 and R315 name them
(PRESUMED, log entry 10). -/

namespace Sys2Proof.Machine

/-! ## Modular arithmetic -/

/-- acc × b^e mod m over k bits of e. -/
def powAux (m : Nat) : Nat → Nat → Nat → Nat → Nat
  | 0, _, _, acc => acc
  | k + 1, b, e, acc => powAux m k (b * b % m) (e / 2) (if e % 2 = 1 then acc * b % m else acc)
def powMod (b e m : Nat) : Nat := powAux m (Nat.log2 e + 1) (b % m) e (1 % m)

/-- Inverse modulo a prime. -/
def invMod (a p : Nat) : Nat := powMod a (p - 2) p
def subMod (a b p : Nat) : Nat := (a + p - b % p) % p

/-- Bit length. -/
def bitLen (n : Nat) : Nat := if n = 0 then 0 else Nat.log2 n + 1

/-! ## Weierstrass curves -/

/-- y² = x³ − 3x + b over p, with base point of order n; `len` bytes per coordinate. -/
structure Curve where
  p : Nat
  b : Nat
  n : Nat
  gx : Nat
  gy : Nat
  len : Nat

def p256 : Curve :=
  { p := 0xffffffff00000001000000000000000000000000ffffffffffffffffffffffff
    b := 0x5ac635d8aa3a93e7b3ebbd55769886bc651d06b0cc53b0f63bce3c3e27d2604b
    n := 0xffffffff00000000ffffffffffffffffbce6faada7179e84f3b9cac2fc632551
    gx := 0x6b17d1f2e12c4247f8bce6e563a440f277037d812deb33a0f4a13945d898c296
    gy := 0x4fe342e2fe1a7f9b8ee7eb4a7c0f9e162bce33576b315ececbb6406837bf51f5
    len := 32 }

def p384 : Curve :=
  { p := 0xfffffffffffffffffffffffffffffffffffffffffffffffffffffffffffffffeffffffff0000000000000000ffffffff
    b := 0xb3312fa7e23ee7e4988e056be3f82d19181d9c6efe8141120314088f5013875ac656398d8a2ed19d2a85c8edd3ec2aef
    n := 0xffffffffffffffffffffffffffffffffffffffffffffffffc7634d81f4372ddf581a0db248b0a77aecec196accc52973
    gx := 0xaa87ca22be8b05378eb1c71ef320ad746e1d3b628ba79b9859f741e082542a385502f25dbf55296c3a545e3872760ab7
    gy := 0x3617de4a96262c6f5d9e98bf9292dc29f8f41dbd289a147ce9da3113b5f0b8c00a60b1ce1d7e819d7a431d7c90ea0e5f
    len := 48 }

/-- An affine point; none is the point at infinity. -/
abbrev Pt := Option (Nat × Nat)

def Curve.onCurve (c : Curve) (x y : Nat) : Bool :=
  x < c.p && y < c.p && y * y % c.p == (x * x * x + (c.p - 3) * x + c.b) % c.p

def Curve.add (c : Curve) : Pt → Pt → Pt
  | none, q => q
  | q, none => q
  | some (x1, y1), some (x2, y2) =>
    if x1 = x2 ∧ (y1 + y2) % c.p = 0 then none
    else
      let l := if x1 = x2 then (3 * x1 * x1 + c.p - 3) * invMod (2 * y1) c.p % c.p
               else subMod y2 y1 c.p * invMod (subMod x2 x1 c.p) c.p % c.p
      let x := subMod (l * l) (x1 + x2) c.p
      some (x, subMod (l * subMod x1 x c.p) y1 c.p)

/-- k × P over the bits of k, low first. -/
def Curve.mulAux (c : Curve) : Nat → Nat → Pt → Pt → Pt
  | 0, _, _, acc => acc
  | i + 1, k, q, acc => c.mulAux i (k / 2) (c.add q q) (if k % 2 = 1 then c.add acc q else acc)
def Curve.mul (c : Curve) (k : Nat) (q : Pt) : Pt := c.mulAux (bitLen k) k q none
def Curve.base (c : Curve) : Pt := some (c.gx, c.gy)

/-- Uncompressed SEC 1 string (R306). -/
def Curve.encode (c : Curve) : Pt → Bytes
  | some (x, y) => 4#8 :: toBe c.len x ++ toBe c.len y
  | none => []

/-- A public point from its string; none where R308 refuses it. -/
def Curve.decode (c : Curve) (b : Bytes) : Pt :=
  let x := ofBe (slice b 1 c.len)
  let y := ofBe (b.drop (1 + c.len))
  if byteAt b 0 = 4 ∧ b.length = 1 + 2 * c.len ∧ c.onCurve x y then some (x, y) else none

/-- A compressed point (R315): both primes are 3 mod 4. -/
def Curve.decompress (c : Curve) (b : Bytes) : Pt :=
  let x := ofBe (b.drop 1)
  let y := powMod (x * x * x + (c.p - 3) * x + c.b) ((c.p + 1) / 4) c.p
  let y := if y % 2 = byteAt b 0 % 2 then y else (c.p - y) % c.p
  if (byteAt b 0 = 2 ∨ byteAt b 0 = 3) ∧ c.onCurve x y then some (x, y) else none

/-- A digest as an integer, cut to the bits of n (FIPS 186-5). -/
def Curve.hashInt (c : Curve) (h : Bytes) : Nat := ofBe (h.take c.len) % 2 ^ (8 * c.len)

/-- ECDSA with a nonce k: r and s. -/
def Curve.sign (c : Curve) (blind d k : Nat) (h : Bytes) : Nat × Nat :=
  let r := match c.mul (k + blind * c.n) c.base with
    | some (x, _) => x % c.n
    | none => 0
  (r, invMod k c.n * (c.hashInt h + r * d) % c.n)

/-- PRESUMED, log entry 10. -/
def Curve.verify (c : Curve) (q : Pt) (h : Bytes) (r s : Nat) : Bool :=
  let w := invMod s c.n
  match c.add (c.mul (c.hashInt h * w % c.n) c.base) (c.mul (r * w % c.n) q) with
  | some (x, _) => x % c.n == r
  | none => false

/-! ## Curve25519 -/

def p25519 : Nat := 2 ^ 255 - 19
def l25519 : Nat := 2 ^ 252 + 27742317777372353535851937790883648493

/-- X25519 ladder state over bits 254 to 0 (RFC 7748). -/
def ladder (x1 k : Nat) : Nat → (Nat × Nat) → (Nat × Nat) → Nat × Nat
  | 0, a, _ => a
  | i + 1, (x2, z2), (x3, z3) =>
    let p := p25519
    let step := fun (u : Nat × Nat) (v : Nat × Nat) =>
      let a := (u.1 + u.2) % p
      let b := subMod u.1 u.2 p
      let c := (v.1 + v.2) % p
      let d := subMod v.1 v.2 p
      let da := d * a % p
      let cb := c * b % p
      let e := subMod (a * a) (b * b % p) p
      let sum := (da + cb) % p
      let dif := subMod da cb p
      ((a * a % p * (b * b % p) % p, e * (a * a % p + 121665 * e) % p), (sum * sum % p, x1 * (dif * dif % p) % p))
    if bit k i then
      let r := step (x3, z3) (x2, z2)
      ladder x1 k i r.2 r.1
    else
      let r := step (x2, z2) (x3, z3)
      ladder x1 k i r.1 r.2

/-- A scalar clamped under RFC 7748. -/
def clamp (k : Bytes) : Nat :=
  let v := ofLe (k.take 32)
  v / 8 * 8 % 2 ^ 254 + 2 ^ 254

/-- X25519 with the ladder's second point in projective coordinates scaled by a non-zero number. (PRESUMED, log entry 10.) -/
def x25519From (scale : Nat) (k u : Bytes) : Bytes :=
  let x := ofLe (u.take 32) % 2 ^ 255 % p25519
  let r := ladder x (clamp k) 255 (1, 0) (x * scale % p25519, scale)
  toLe 32 (r.1 * invMod r.2 p25519 % p25519)

/-- X25519 (RFC 7748). (PRESUMED, log entry 10.) -/
def x25519 (k u : Bytes) : Bytes := x25519From 1 k u

/-- X25519 on a private key: its projective coordinates are randomised by the blinding bytes (R317). A multiple of n on the scalar would
change what a point of the twist gives under RFC 7748, so the scalar stands (DESIGN CHOICE, log entry 43). -/
def x25519Blind (blind k u : Bytes) : Bytes := x25519From (ofLe (blind.drop 8) % (p25519 - 1) + 1) k u

def d25519 : Nat := subMod 0 (121665 * invMod 121666 p25519) p25519

/-- Twisted Edwards addition, complete. -/
def edAdd (a b : Nat × Nat) : Nat × Nat :=
  let p := p25519
  let k := d25519 * (a.1 * b.1 % p) % p * (a.2 * b.2 % p) % p
  ((a.1 * b.2 + b.1 * a.2) % p * invMod (1 + k) p % p, (a.2 * b.2 + a.1 * b.1) % p * invMod (subMod 1 k p) p % p)

def edMulAux : Nat → Nat → Nat × Nat → Nat × Nat → Nat × Nat
  | 0, _, _, acc => acc
  | i + 1, k, q, acc => edMulAux i (k / 2) (edAdd q q) (if k % 2 = 1 then edAdd acc q else acc)
def edMul (k : Nat) (q : Nat × Nat) : Nat × Nat := edMulAux (bitLen k) k q (0, 1)

/-- x with the given parity from y, where a point exists (RFC 8032). -/
def edX (y sign : Nat) : Option Nat :=
  let p := p25519
  let u := subMod (y * y) 1 p
  let v := (d25519 * (y * y % p) + 1) % p
  let x2 := u * invMod v p % p
  let x := powMod x2 ((p + 3) / 8) p
  let x := if x * x % p = x2 then x else x * powMod 2 ((p - 1) / 4) p % p
  if x * x % p ≠ x2 then none
  else if x = 0 ∧ sign = 1 then none
  else some (if x % 2 = sign then x else p - x)

/-- A canonical encoding of a point (R308). -/
def edDecode (b : Bytes) : Option (Nat × Nat) :=
  let v := ofLe b
  let y := v % 2 ^ 255
  if b.length = 32 ∧ y < p25519 then (edX y (v / 2 ^ 255)).map fun x => (x, y) else none

def edEncode (q : Nat × Nat) : Bytes := toLe 32 (q.2 + q.1 % 2 * 2 ^ 255)

def edBase : Nat × Nat :=
  let y := 4 * invMod 5 p25519 % p25519
  ((edX y 0).getD 0, y)

/-- A point of small order: eight times it is the identity. -/
def edSmall (q : Nat × Nat) : Bool := edMul 8 q == (0, 1)

def edSecret (seed : Bytes) : Nat × Bytes :=
  let h := sha512 seed
  (clamp (h.take 32), h.drop 32)

def edPublic (seed : Bytes) : Bytes := edEncode (edMul (edSecret seed).1 edBase)

/-- Ed25519 signing, its scalar blinded by a random 64-bit multiple of n (R317). -/
def edSign (blind : Nat) (seed msg : Bytes) : Bytes :=
  let s := edSecret seed
  let r := ofLe (sha512 (s.2 ++ msg)) % l25519
  let rb := edEncode (edMul (r + blind * l25519) edBase)
  let k := ofLe (sha512 (rb ++ edPublic seed ++ msg)) % l25519
  rb ++ toLe 32 ((r + k * s.1) % l25519)

/-- Cofactorless verification (R308): [S]B = R + [k]A. (PRESUMED, log entry 10.) -/
def edVerify (a r : Nat × Nat) (pub sig msg : Bytes) : Bool :=
  let k := ofLe (sha512 (sig.take 32 ++ pub ++ msg)) % l25519
  edMul (ofLe (sig.drop 32)) edBase == edAdd r (edMul k a)

/-! ## RSA -/

/-- MGF1 with a hash of the given code. -/
def mgf1 (alg : Nat) (seed : Bytes) (n : Nat) : Bytes :=
  (((List.range (ceilDiv n (digestLen alg))).map fun i => digest alg 0 (seed ++ toBe 4 i)).flatten).take n

/-- EMSA-PSS encoding with salt of the hash length, for a modulus of nb bits. -/
def pssEncode (alg : Nat) (h salt : Bytes) (nb : Nat) : Bytes :=
  let em := ceilDiv (nb - 1) 8
  let hl := digestLen alg
  let hh := digest alg 0 (zeros 8 ++ h ++ salt)
  let db := zeros (em - 2 * hl - 2) ++ 1#8 :: salt
  let masked := xorB db (mgf1 alg hh (em - hl - 1))
  let top := 8 * em - (nb - 1)
  (masked.modify 0 fun x => x &&& BitVec.ofNat 8 (0xFF / 2 ^ top)) ++ hh ++ [0xBC#8]

/-- PRESUMED, log entry 10. -/
def pssVerify (alg : Nat) (h em : Bytes) (nb : Nat) : Bool :=
  let hl := digestLen alg
  let n := em.length
  let masked := em.take (n - hl - 1)
  let hh := slice em (n - hl - 1) hl
  let top := 8 * n - (nb - 1)
  let db := (xorB masked (mgf1 alg hh (n - hl - 1))).modify 0 fun x => x &&& BitVec.ofNat 8 (0xFF / 2 ^ top)
  decide (2 * hl + 2 ≤ n) && em.getLast? == some 0xBC#8 && byteAt em 0 < 2 ^ (8 - top) && allZero (db.take (n - 2 * hl - 2))
    && byteAt db (n - 2 * hl - 2) == 1
    && digest alg 0 (zeros 8 ++ h ++ db.drop (n - 2 * hl - 1)) == hh

/-- DER prefix of DigestInfo for SHA-256, SHA-384 and SHA-512. -/
def digestInfo (alg : Nat) : Bytes :=
  let oid := if alg = 0x31 then 1#8 else if alg = 0x32 then 2#8 else 3#8
  let hl := BitVec.ofNat 8 (digestLen alg)
  [0x30#8, 0x11#8 + hl, 0x30#8, 0x0D#8, 0x06#8, 0x09#8, 0x60#8, 0x86#8, 0x48#8, 0x01#8, 0x65#8, 0x03#8, 0x04#8, 0x02#8,
    oid, 0x05#8, 0x00#8, 0x04#8, hl]

/-- EMSA-PKCS1-v1_5 of k bytes. (PRESUMED, log entry 10.) -/
def v15Encode (alg : Nat) (h : Bytes) (k : Nat) : Bytes :=
  let t := digestInfo alg ++ h
  [0#8, 1#8] ++ List.replicate (k - 3 - t.length) 0xFF#8 ++ 0#8 :: t

/-- An RSA secret key of R306: p, q, dP, dQ, qInv. -/
structure RsaKey where
  p : Nat
  q : Nat
  dp : Nat
  dq : Nat
  qi : Nat

def RsaKey.ofBytes (b : Bytes) : RsaKey :=
  let h := b.length / 5
  let f := fun i => ofBe (slice b (i * h) h)
  ⟨f 0, f 1, f 2, f 3, f 4⟩

/-- x^d mod n by CRT, each exponent blinded by a multiple of p − 1 or q − 1 (R317). -/
def RsaKey.raise (k : RsaKey) (bp bq x : Nat) : Nat :=
  let a := powMod x (k.dp + bp * (k.p - 1)) k.p
  let b := powMod x (k.dq + bq * (k.q - 1)) k.q
  b + k.q * (k.qi * subMod a b k.p % k.p)

/-- Steps of the extended Euclidean algorithm for an inverse modulo m; the first argument bounds the recursion. -/
def invSteps (m : Nat) : Nat → Nat → Nat → Nat → Nat → Nat
  | 0, _, _, _, _ => 0
  | k + 1, r0, r1, t0, t1 =>
    if r1 = 0 then (if r0 = 1 then t0 else 0) else invSteps m k r1 (r0 % r1) t1 (subMod t0 (r0 / r1 * t1 % m) m)

/-- The inverse of a modulo any m; 0 where there is none. -/
def invAny (a m : Nat) : Nat := invSteps m (2 * bitLen m + 2) m (a % m) 0 1

/-- x^d mod n with the message blinded by r^e (R317); without blinding where r has no inverse. -/
def RsaKey.blinded (k : RsaKey) (r bp bq x : Nat) : Nat :=
  let n := k.p * k.q
  let i := invAny r n
  if i = 0 then k.raise bp bq x else k.raise bp bq (x * powMod r 65537 n % n) * i % n

/-- The consistency check of R314. -/
def RsaKey.consistent (k : RsaKey) (half : Nat) : Bool :=
  bitLen k.p == 8 * half && bitLen k.q == 8 * half && k.p % 2 == 1 && k.q % 2 == 1 && k.qi * k.q % k.p == 1
    && k.dp * 65537 % (k.p - 1) == 1 && k.dq * 65537 % (k.q - 1) == 1

end Sys2Proof.Machine
end

