-- ==== Sys2Proof/Machine/KeyOps.lean ====
section
/-! DEFINITION. Operations that use no engine: key blobs (R118 to R121, R314), KEY_EVICT (R114), the sealed key bus
(R65 to R67, R126), KEY_DERIVE's row, and RANDOM (R208, R323). -/

namespace Sys2Proof.Machine

/-! ## Blobs -/

/-- KWP output bytes for a key of n bytes (R118). (PRESUMED, log entry 10.) -/
def kwpLen (n : Nat) : Nat := (n + 7) / 8 * 8 + 8

/-- Wrapping key (k = 1) or MAC key (k = 2) of a root (R119). -/
def blobKey (root owner : Bytes) (svn k : Nat) : Bytes := leafKey root (internalLabel 1 (owner ++ [BitVec.ofNat 8 k])) (some svn)

/-- Offsets of a blob's offending bytes (R118, R120, R210). (DEDUCED, log entry 26.) -/
def blobBad (b : Bytes) : List Nat :=
  let n := le b 2 2
  badIf (le b 0 2 != 1) 0 ++ badIf (!(16 ≤ n && n ≤ 1536) || b.length != 56 + kwpLen n || !keyBytesOk (byteAt b 8) n) 2
    ++ badIf (!keyTypes.contains (byteAt b 8)) 8 ++ badIf (byteAt b 9 != 0) 9 ++ badIf (decide (2 < byteAt b 10)) 10
    ++ badIf (if byteAt b 10 = 2 then !(1 ≤ byteAt b 11 && byteAt b 11 ≤ 64) else byteAt b 10 == 0 && byteAt b 11 != 0) 11
    ++ badIf (decide (4 ≤ byteAt b 37)) 37 ++ nonZero b 38 2

/-- R120: the checks that need no key, after the format. -/
def State.blobRefused (s : State) (b : Bytes) : Option (Status × Nat) :=
  if bit (byteAt b 37) 0 ≠ s.life.debug then some (.keyPolicy, 0)
  else if s.life.fwSvn < le b 12 4 ∨ byteAt b 10 = 1 ∨ usageCodes.contains (le b 4 4) = false then some (.keyPolicy, 0)
  else none

/-- MAC and KWP of a blob under its root (R119, R120). (DEDUCED, log entry 26.) -/
def openBlob (root b : Bytes) : Option Bytes :=
  let w := kwpLen (le b 2 2)
  let owner := slice b 16 8
  let svn := le b 12 4
  if cmac (blobKey root owner svn 2) (b.take (40 + w)) = b.drop (40 + w) then
    match kwpUnwrap (blobKey root owner svn 1) (slice b 40 w) with
    | some k => if k.length = le b 2 2 then some k else none
    | none => none
  else none

/-- Slot attributes from a blob's header (R118, R120). (DESIGN CHOICE, log entry 48.) -/
def blobSlot (b key : Bytes) : NewKey :=
  ⟨key, le b 4 4, byteAt b 8, byteAt b 10, byteAt b 11, slice b 32 4, true, 0, le b 24 8, some (byteAt b 36), [],
    bit (byteAt b 37) 1, slice b 16 8⟩

/-- R314, for a key of an RSA type. -/
def rsaKeyOk (ktype : Nat) (k : Bytes) : Bool :=
  !(ktype ∈ [0x18, 0x19, 0x1A]) || (RsaKey.ofBytes k).consistent (k.length / 5)

/-- KEY_UNWRAP with its blob read (R120, R314). -/
def State.unwrap (s : State) (j : Job) : State :=
  let b := j.src
  match (blobBad b).min? with
  | some o => s.finish j .malformedEntry (location 2 o)
  | none =>
    match s.blobRefused b with
    | some (st, r) => s.finish j st r
    | none =>
      match s.rootKey (byteAt b 36) with
      | none => s.finish j .keyNotReady 0
      | some root =>
        match openBlob root b with
        | none => s.finish j .authFail 0
        | some key =>
          match s.place j.inst (runLen key.length) with
          | none => s.finish j .keyNotReady 0
          | some (at_, s') =>
            if rsaKeyOk (byteAt b 8) key then (s'.install j.inst at_ (blobSlot b key)).yieldSlot j at_
            else s.finish j .pkInvalidInput (location 2 0)

/-- The blob of a slot (R118, R119, R121). (DESIGN CHOICE, log entry 48.) -/
def wrapBlob (x : Slot) (root : Bytes) (code svn : Nat) (owner : Bytes) : Bytes :=
  let head := toLe 2 1 ++ toLe 2 x.key.length ++ toLe 4 x.usage ++ toLe 2 x.ktype ++ toLe 1 x.csrc ++ toLe 1 x.cnum
    ++ toLe 4 svn ++ owner ++ toLe 8 x.limit ++ x.fixed ++ toLe 1 code ++ toLe 1 (flag x.test + 2 * flag x.sealedOnly)
    ++ zeros 2
  let body := head ++ kwpWrap (blobKey root owner svn 1) x.key
  body ++ cmac (blobKey root owner svn 2) body

/-- KEY_WRAP (R121): its checks have passed. -/
def State.wrap (s : State) (j : Job) : State :=
  match j.keyCopy, s.rootKey (byteAt j.raw 44) with
  | some x, some root =>
    let svn := if bit (byteAt j.raw 45) 0 then le j.raw 24 4 else s.life.fwSvn
    let b := wrapBlob x root (byteAt j.raw 44) svn (slice j.raw 16 8)
    s.writeEnd j (outBuf 3 (le j.raw 32 8) b) b.length
  | _, _ => s.finish j .keyNotReady j.keyResult

/-! ## The sealed key bus -/

/-- Put a job's key on the bus, as two fresh shares (R65). (DEDUCED, log entry 40.) -/
def State.busStart (s : State) (j : Job) : State :=
  match j.keyCopy with
  | none => s
  | some x =>
    let r := s.splitKey (padTo 32 x.key)
    let t : KbTransfer := ⟨j.id, j.opspec % 16, j.opspec / 256, BitVec.ofNat 16 (x.key.length + 256 * x.ktype), r.1.1, r.1.2⟩
    ((r.2.updPins fun p => { p with kb := some t }).updJob j.id fun k => { k with phase := .bus }).count 0x201D 1

/-- The next waiting job takes the bus when it is free and KB_ZEROISE is low (R67). (DEDUCED, log entry 40.) -/
def State.busNext (s : State) : State :=
  if s.pins.kb.isSome ∨ s.pins.kbZeroise then s
  else match s.jobs.find? (·.phase == .busWait) with
    | some j => s.busStart j
    | none => s

/-- The job whose transfer stands on the bus ends (R66). (DEDUCED, log entry 40.) -/
def State.busAnswer (s : State) (st : Status) : State :=
  match s.pins.kb with
  | none => s
  | some t =>
    let s := s.updPins fun p => { p with kb := none }
    match s.job t.job with
    | some j =>
      if j.phase = .bus then (s.finish j st (if st = .keyPolicy then j.keyResult else 0)).busNext
      else s.busNext
    | none => s.busNext

def execKbAck (s : State) : Host.Outcome State Fault Refusal := .next (s.busAnswer .ok)
def execKbNack (s : State) : Host.Outcome State Fault Refusal := .next (if s.pins.kb.isSome then (s.count 0x201D 2).busAnswer .keyPolicy else s)
def execKbAnswerTimeout (s : State) : Host.Outcome State Fault Refusal := .next (if s.pins.kb.isSome then (s.count 0x201D 3).busAnswer .engineFault else s)

/-- KB_ZEROISE_WAIT_TIMEOUT (R67): 256 cycles of waiting with KB_ZEROISE high; no transfer was made. -/
def execKbZeroiseWaitTimeout (id : Nat) (s : State) : Host.Outcome State Fault Refusal :=
  match s.job id with
  | some j => if j.phase = .busWait ∧ s.pins.kbZeroise then .next (s.finish j .engineFault 0) else .next s
  | none => .next s

/-- KB_ZEROISE_FALL (R67): its 16 cycles are over; it stands high while the core rail is off, while DIE_RST_N is held,
in ROM mode, and with both tandems out (R26, R492). -/
def execKbZeroiseFall (s : State) : Host.Outcome State Fault Refusal :=
  if s.alive then .next (s.updPins fun p => { p with kbZeroise := false }).busNext else .next s

/-! ## RANDOM -/

/-- RANDOM (R208, R323, R325). -/
def State.runRandom (s : State) (j : Job) : State :=
  if s.rng.serves = false then s.finish j .entropyFail 0
  else
    let r := (if bit j.opspec 0 then s.reseed else s).drawBytes j.tc j.len
    let l := outs 2 j.dstFrags 0 r.1
    r.2.writeEnd j l ((l.map fun o => o.2.2.2.length).sum)

/-! ## Running a job without an engine -/

/-- Run a job that needs no engine, once its input is there (step 8 of R194). -/
def State.runPlain (s : State) (id : Nat) : State :=
  match s.job id with
  | none => s
  | some j =>
    if j.ready = false ∨ (engineOf j.opcode).isSome then s
    else match j.opcode with
      | 0x0301 => s.unwrap j
      | 0x0302 => s.wrap j
      | 0x0303 => s.updJob id fun k => { k with phase := .evicting }
      | 0x0304 => (s.updJob id fun k => { k with phase := .busWait }).busNext
      | 0x0500 => s.runRandom j
      | _ => s

def execKeyDerive (id : Nat) (s : State) : Host.Outcome State Fault Refusal := .next (s.begin id 0x0300).serveWaiting
def execKeyUnwrap (id : Nat) (s : State) : Host.Outcome State Fault Refusal := .next ((s.begin id 0x0301).runPlain id)
def execKeyWrap (id : Nat) (s : State) : Host.Outcome State Fault Refusal := .next ((s.begin id 0x0302).runPlain id)
def execKeyEvict (id : Nat) (s : State) : Host.Outcome State Fault Refusal := .next ((s.begin id 0x0303).runPlain id)
def execKeyDeliverSealed (id : Nat) (s : State) : Host.Outcome State Fault Refusal := .next ((s.begin id 0x0304).runPlain id)
def execRandom (id : Nat) (s : State) : Host.Outcome State Fault Refusal := .next ((s.begin id 0x0500).runPlain id)

/-! ## KEY_EVICT_COMPLETE -/

/-- The jobs that resolved slot i have finished with it; `by_` is the KEY_EVICT (R114). (DEDUCED, log entry 14.) -/
def State.evictReady (s : State) (i by_ : Nat) : Bool := s.jobs.all fun j => j.key != some i || j.id == by_

/-- A KEY_EVICT of slot number i whose slot went with its root before: it ends OK once every other job that keeps that key has (R114, R124). (DEDUCED, log entry 14.) -/
def State.goneEvictDone (s : State) (i : Nat) : State :=
  match s.jobs.find? fun j => j.phase == .evicting && j.goneKey.any fun h => h % 8192 == i with
  | some j => if s.jobs.all fun k => k.goneKey != j.goneKey || k.id == j.id then s.finish j .ok 0 else s
  | none => s

/-- KEY_EVICT_COMPLETE: the slot is emptied, a session on it fails, and the KEY_EVICT ends OK (R114, R299). (DEDUCED, log entry 14.) -/
def State.evictDone (s : State) (i : Nat) : State :=
  match (s.keys.slot i).bind (·.evicting) with
  | none => s.goneEvictDone i
  | some by_ =>
    match s.job by_ with
    | some j => if j.phase = .evicting ∧ s.evictReady i by_ then (s.emptySlot i 5).finishId by_ .ok 0 else s
    | none => s

def execKeyEvictComplete (slot : Nat) (s : State) : Host.Outcome State Fault Refusal := .next (s.evictDone slot)

end Sys2Proof.Machine
end

