-- ==== Sys2Proof/Machine/Lattice.lean ====
section
/-! DEFINITION. ML-KEM (FIPS 203) and ML-DSA (FIPS 204), the module-lattice schemes that R304 names (PRESUMED, log entry 10).
A number-theoretic transform is written as the evaluations it computes. Rejection samplers read a fixed length of
output, beyond what the standards ask an implementation to bound. -/

namespace Sys2Proof.Machine

/-- A polynomial of 256 coefficients below q. -/
abbrev Poly := Array Nat

/-- Reversal of the lowest n bits. -/
def bitRev : Nat → Nat → Nat
  | 0, _ => 0
  | n + 1, x => x % 2 * 2 ^ n + bitRev n (x / 2)

/-- Powers of g below exponent n, modulo q. -/
def powers (g q : Nat) : Nat → Nat → List Nat
  | 0, _ => []
  | n + 1, a => a :: powers g q n (a * g % q)

def padd (q : Nat) (a b : Poly) : Poly := ((List.range 256).map fun i => (a[i]! + b[i]!) % q).toArray
def psub (q : Nat) (a b : Poly) : Poly := ((List.range 256).map fun i => (a[i]! + q - b[i]!) % q).toArray
def pzero : Poly := Array.replicate 256 0
def psum (q : Nat) (l : List Poly) : Poly := l.foldl (padd q) pzero

/-! ## Bits -/

/-- The bits of a string, least significant of each byte first. -/
def bitsOf (b : Bytes) : List Nat := (b.map fun x => (List.range 8).map fun i => x.toNat / 2 ^ i % 2).flatten

/-- A number from its bits, least significant first. -/
def ofBits (l : List Nat) : Nat := l.foldr (fun b acc => b + 2 * acc) 0

/-- Cut into groups of n. -/
def groupsAux (n : Nat) : Nat → List Nat → List (List Nat)
  | 0, _ => []
  | k + 1, l => l.take n :: groupsAux n k (l.drop n)

def groups (n : Nat) (l : List Nat) : List (List Nat) := groupsAux n (l.length / n) l

/-- Coefficients of d bits each, as bytes. -/
def packBits (d : Nat) (l : List Nat) : Bytes :=
  (groups 8 ((l.map fun x => (List.range d).map fun i => x / 2 ^ i % 2).flatten)).map fun g => BitVec.ofNat 8 (ofBits g)

/-- d-bit numbers of a string. -/
def unpackBits (d : Nat) (b : Bytes) : List Nat := (groups d (bitsOf b)).map ofBits

/-! ## ML-KEM -/

/-- Parameters of an ML-KEM set. -/
structure KemSet where
  k  : Nat
  n1 : Nat
  du : Nat
  dv : Nat

def kemSet (alg : Nat) : KemSet :=
  match alg with
  | 0x50 => ⟨2, 3, 10, 4⟩
  | 0x51 => ⟨3, 2, 10, 4⟩
  | _ => ⟨4, 2, 11, 5⟩

def kq : Nat := 3329
def kZeta : Array Nat := (powers 17 kq 256 1).toArray
/-- Exponent of the root of factor i. -/
def kRoot (i : Nat) : Nat := 2 * bitRev 7 i + 1

/-- The transform: f modulo each of the 128 quadratic factors. -/
def kNtt (f : Poly) : Poly :=
  ((List.range 256).map fun x =>
    ((List.range 128).foldl (fun acc j => acc + f[2 * j + x % 2]! * kZeta[kRoot (x / 2) * j % 256]!) 0) % kq).toArray

def kNttInv (f : Poly) : Poly :=
  ((List.range 256).map fun x =>
    ((List.range 128).foldl (fun acc i => acc + f[2 * i + x % 2]! * kZeta[(256 - kRoot i * (x / 2) % 256) % 256]!) 0) * 3303 % kq).toArray

/-- Product in the transformed domain. -/
def kMul (a b : Poly) : Poly :=
  ((List.range 128).map fun i =>
    let z := kZeta[kRoot i]!
    [(a[2 * i]! * b[2 * i]! + a[2 * i + 1]! * b[2 * i + 1]! % kq * z) % kq,
     (a[2 * i]! * b[2 * i + 1]! + a[2 * i + 1]! * b[2 * i]!) % kq]).flatten.toArray

def kDot (a b : List Poly) : Poly := psum kq (List.zipWith kMul a b)

/-- SampleNTT: candidates of 12 bits below q. -/
def kSample (seed : Bytes) : Poly :=
  padPoly ((((blocks 3 (shake128 1680 seed)).map fun b =>
    [byteAt b 0 + 256 * (byteAt b 1 % 16), byteAt b 1 / 16 + 16 * byteAt b 2]).flatten).filter (· < kq))
where
  /-- The first 256. -/
  padPoly (l : List Nat) : Poly := ((l ++ List.replicate 256 0).take 256).toArray

/-- SamplePolyCBD. -/
def kCbd (n : Nat) (b : Bytes) : Poly :=
  ((groups (2 * n) (bitsOf b)).map fun g => ((g.take n).sum + kq - (g.drop n).sum) % kq).toArray

def kPrf (n : Nat) (s : Bytes) (i : Nat) : Poly := kCbd n (shake256 (64 * n) (s ++ [BitVec.ofNat 8 i]))

def kCompress (d x : Nat) : Nat := (x * 2 ^ d * 2 + kq) / (2 * kq) % 2 ^ d
def kDecompress (d y : Nat) : Nat := (y * kq * 2 + 2 ^ d) / 2 ^ (d + 1)

def kEncode (d : Nat) (f : Poly) : Bytes := packBits d f.toList
def kDecode (d : Nat) (b : Bytes) : Poly := (unpackBits d b).toArray

/-- The matrix entry at row i, column j. -/
def kMat (rho : Bytes) (i j : Nat) : Poly := kSample (rho ++ [BitVec.ofNat 8 j, BitVec.ofNat 8 i])

/-- K-PKE.KeyGen: encryption key and secret, transformed. -/
def kpkeGen (p : KemSet) (d : Bytes) : Bytes × List Poly :=
  let g := sha3 64 (d ++ [BitVec.ofNat 8 p.k])
  let rho := g.take 32
  let s := (List.range p.k).map fun i => kNtt (kPrf p.n1 (g.drop 32) i)
  let e := (List.range p.k).map fun i => kNtt (kPrf p.n1 (g.drop 32) (p.k + i))
  let t := (List.range p.k).map fun i => padd kq (kDot ((List.range p.k).map (kMat rho i)) s) (e.getD i pzero)
  ((t.map (kEncode 12)).flatten ++ rho, s)

/-- K-PKE.Encrypt. -/
def kpkeEnc (p : KemSet) (ek m r : Bytes) : Bytes :=
  let t := (blocks 384 (ek.take (384 * p.k))).map (kDecode 12)
  let rho := ek.drop (384 * p.k)
  let y := (List.range p.k).map fun i => kNtt (kPrf p.n1 r i)
  let u := (List.range p.k).map fun i =>
    padd kq (kNttInv (kDot ((List.range p.k).map fun j => kMat rho j i) y)) (kPrf 2 r (p.k + i))
  let mu := ((unpackBits 1 m).map (kDecompress 1)).toArray
  let v := psum kq [kNttInv (kDot t y), kPrf 2 r (2 * p.k), mu]
  (u.map fun f => kEncode p.du (f.map (kCompress p.du))).flatten ++ kEncode p.dv (v.map (kCompress p.dv))

/-- A random share of secret polynomial i, from the blinding bytes of the operation (R317; DESIGN CHOICE, log entry 43). -/
def kShare (blind : Bytes) (i : Nat) : Poly := kSample (blind ++ [BitVec.ofNat 8 i, 0#8])

/-- A product with secret polynomials that are held as two additive shares (R317). -/
def kDotShared (blind : Bytes) (s u : List Poly) : Poly :=
  let m := (List.range s.length).map (kShare blind)
  padd kq (kDot (List.zipWith (psub kq) s m) u) (kDot m u)

/-- K-PKE.Decrypt. -/
def kpkeDec (p : KemSet) (blind : Bytes) (s : List Poly) (c : Bytes) : Bytes :=
  let n := 32 * p.du
  let u := (blocks n (c.take (n * p.k))).map fun b => kNtt ((kDecode p.du b).map (kDecompress p.du))
  let v := (kDecode p.dv (c.drop (n * p.k))).map (kDecompress p.dv)
  packBits 1 ((psub kq v (kNttInv (kDotShared blind s u))).toList.map (kCompress 1))

/-- The encapsulation key of a seed d. -/
def kemPublic (alg : Nat) (d : Bytes) : Bytes := (kpkeGen (kemSet alg) d).1

/-- The modulus check of FIPS 203 (R308). -/
def kemKeyOk (alg : Nat) (ek : Bytes) : Bool := (unpackBits 12 (ek.take (384 * (kemSet alg).k))).all (· < kq)

/-- Encapsulation with randomness m: shared secret and ciphertext. (PRESUMED, log entry 10.) -/
def kemEncaps (alg : Nat) (ek m : Bytes) : Bytes × Bytes :=
  let g := sha3 64 (m ++ sha3 32 ek)
  (g.take 32, kpkeEnc (kemSet alg) ek m (g.drop 32))

/-- Decapsulation under the seed d, z, with implicit rejection. -/
def kemDecaps (alg : Nat) (blind seed c : Bytes) : Bytes :=
  let p := kemSet alg
  let k := kpkeGen p (seed.take 32)
  let m := kpkeDec p blind k.2 c
  let g := sha3 64 (m ++ sha3 32 k.1)
  if kpkeEnc p k.1 m (g.drop 32) = c then g.take 32 else shake256 32 (seed.drop 32 ++ c)

/-! ## ML-DSA -/

/-- Parameters of an ML-DSA set. -/
structure DsaSet where
  k     : Nat
  l     : Nat
  eta   : Nat
  tau   : Nat
  g1    : Nat     -- log2 of gamma1
  g2    : Nat     -- gamma2
  omega : Nat
  cLen  : Nat     -- bytes of c~

def dq : Nat := 8380417

def dsaSet (alg : Nat) : DsaSet :=
  match alg with
  | 0x48 => ⟨4, 4, 2, 39, 17, (dq - 1) / 88, 80, 32⟩
  | 0x49 => ⟨6, 5, 4, 49, 19, (dq - 1) / 32, 55, 48⟩
  | _ => ⟨8, 7, 2, 60, 19, (dq - 1) / 32, 75, 64⟩

def DsaSet.beta (p : DsaSet) : Nat := p.tau * p.eta

def dZeta : Array Nat := (powers 1753 dq 512 1).toArray
def dRoot (i : Nat) : Nat := 2 * bitRev 8 i + 1

def dNtt (f : Poly) : Poly :=
  ((List.range 256).map fun i => ((List.range 256).foldl (fun acc j => acc + f[j]! * dZeta[dRoot i * j % 512]!) 0) % dq).toArray

/-- 256 inverse modulo q. -/
def dNttInv (f : Poly) : Poly :=
  ((List.range 256).map fun j =>
    ((List.range 256).foldl (fun acc i => acc + f[i]! * dZeta[(512 - dRoot i * j % 512) % 512]!) 0) % dq * 8347681 % dq).toArray

def dMul (a b : Poly) : Poly := ((List.range 256).map fun i => a[i]! * b[i]! % dq).toArray
def dDot (a b : List Poly) : Poly := psum dq (List.zipWith dMul a b)

/-- Absolute value of a coefficient as a centred residue. -/
def dAbs (x : Nat) : Nat := if x ≤ dq / 2 then x else dq - x
/-- Largest absolute value in a list of polynomials. -/
def dNorm (l : List Poly) : Nat := l.foldl (fun m f => f.foldl (fun m x => max m (dAbs x)) m) 0

/-- RejNTTPoly: candidates of 23 bits below q. -/
def dSample (seed : Bytes) : Poly :=
  (((((blocks 3 (shake128 1680 seed)).map fun b => byteAt b 0 + 256 * byteAt b 1 + 65536 * (byteAt b 2 % 128)).filter (· < dq))
    ++ List.replicate 256 0).take 256).toArray

/-- RejBoundedPoly. -/
def dBounded (eta : Nat) (seed : Bytes) : Poly :=
  let half := ((shake256 680 seed).map fun b => [b.toNat % 16, b.toNat / 16]).flatten
  let cs := half.filterMap fun b =>
    if eta = 2 then (if b < 15 then some ((dq + 2 - b % 5) % dq) else none)
    else if b < 9 then some ((dq + 4 - b) % dq) else none
  ((cs ++ List.replicate 256 0).take 256).toArray

def dMat (rho : Bytes) (r s : Nat) : Poly := dSample (rho ++ [BitVec.ofNat 8 s, BitVec.ofNat 8 r])

/-- Coefficients packed as b minus them, n bits each. -/
def dPack (n b : Nat) (f : Poly) : Bytes := packBits n (f.toList.map fun x => (b + dq - x) % dq)
def dUnpack (n b : Nat) (s : Bytes) : Poly := ((unpackBits n s).map fun x => (b + dq - x) % dq).toArray

/-- Power2Round: high part, and the low part modulo q. -/
def power2Round (x : Nat) : Nat × Nat :=
  let hi := (x + 4095) / 8192
  (hi, (x + dq - hi * 8192) % dq)

/-- Decompose: r1, and r0 modulo q. -/
def decompose (g2 x : Nat) : Nat × Nat :=
  let hi := (x + g2 - 1) / (2 * g2)
  if hi * (2 * g2) = dq - 1 then (0, x) else (hi, (x + dq - hi * (2 * g2)) % dq)

/-- Bits of a packed high part. -/
def DsaSet.w1Bits (p : DsaSet) : Nat := if p.g2 = (dq - 1) / 88 then 6 else 4
/-- Number of high parts. -/
def DsaSet.m (p : DsaSet) : Nat := (dq - 1) / (2 * p.g2)

def DsaSet.w1Encode (p : DsaSet) (l : List Poly) : Bytes := (l.map fun f => packBits p.w1Bits f.toList).flatten

/-- SampleInBall. -/
def DsaSet.ball (p : DsaSet) (seed : Bytes) : Poly :=
  let s := shake256 272 seed
  let signs := bitsOf (s.take 8)
  let step (st : Poly × Bytes) (i : Nat) : Poly × Bytes :=
    let rest := st.2.dropWhile fun b => i < b.toNat
    let j := byteAt rest 0
    let c := st.1.set! i st.1[j]!
    (c.set! j (if signs.getD (i + p.tau - 256) 0 = 1 then dq - 1 else 1), rest.drop 1)
  ((List.range p.tau).foldl (fun st i => step st (256 - p.tau + i)) (pzero, s.drop 8)).1

/-- Key material of a seed: rho, K, s1, s2, t1, t0. -/
structure DsaKey where
  rho : Bytes
  kk  : Bytes
  s1  : List Poly
  s2  : List Poly
  t1  : List Poly
  t0  : List Poly

def dsaKey (alg : Nat) (seed : Bytes) : DsaKey :=
  let p := dsaSet alg
  let g := shake256 128 (seed ++ [BitVec.ofNat 8 p.k, BitVec.ofNat 8 p.l])
  let rho := g.take 32
  let rho' := slice g 32 64
  let s1 := (List.range p.l).map fun r => dBounded p.eta (rho' ++ toLe 2 r)
  let s2 := (List.range p.k).map fun r => dBounded p.eta (rho' ++ toLe 2 (p.l + r))
  let n1 := s1.map dNtt
  let t := (List.range p.k).map fun r =>
    padd dq (dNttInv (dDot ((List.range p.l).map (dMat rho r)) n1)) (s2.getD r pzero)
  ⟨rho, slice g 96 32, s1, s2, t.map fun f => f.map fun x => (power2Round x).1, t.map fun f => f.map fun x => (power2Round x).2⟩

/-- The public key of a seed. -/
def DsaKey.public (k : DsaKey) : Bytes := k.rho ++ (k.t1.map fun f => packBits 10 f.toList).flatten

def dsaPublic (alg : Nat) (seed : Bytes) : Bytes := (dsaKey alg seed).public

/-- The formatted message of pure ML-DSA or HashML-DSA; `hash` is none for pure, else the ALG of the pre-hash (R307). -/
def dsaMessage (hash : Option Nat) (ctx m : Bytes) : Bytes :=
  let oid (h : Nat) : Byte :=
    match h with
    | 0x31 => 0x01#8
    | 0x32 => 0x02#8
    | 0x33 => 0x03#8
    | 0x38 => 0x08#8
    | 0x39 => 0x09#8
    | 0x3A => 0x0A#8
    | 0x3C => 0x0B#8
    | _ => 0x0C#8
  match hash with
  | none => [0#8, BitVec.ofNat 8 ctx.length] ++ ctx ++ m
  | some h =>
    [1#8, BitVec.ofNat 8 ctx.length] ++ ctx
      ++ [0x06#8, 0x09#8, 0x60#8, 0x86#8, 0x48#8, 0x01#8, 0x65#8, 0x03#8, 0x04#8, 0x02#8, oid h] ++ m

/-- A product with a secret polynomial that is held as two additive shares (R317); share number i comes from the blinding bytes of the
operation (DESIGN CHOICE, log entry 43). -/
def dMulShared (blind : Bytes) (i : Nat) (a s : Poly) : Poly :=
  let m := dSample (blind ++ [BitVec.ofNat 8 i, 0#8])
  padd dq (dMul a (psub dq s m)) (dMul a m)

/-- The products of one polynomial with a list of secret ones, their shares numbered from `i` on. -/
def dMulAll (blind : Bytes) (i : Nat) (a : Poly) (l : List Poly) : List Poly :=
  l.zipIdx.map fun x => dNttInv (dMulShared blind (i + x.2) a x.1)

/-- One iteration of signing at counter kappa; none where it is rejected. -/
def dsaTry (p : DsaSet) (blind : Bytes) (mat : List (List Poly)) (n1 n2 n0 : List Poly) (mu rho'' : Bytes) (kappa : Nat) :
    Option Bytes :=
  let y := (List.range p.l).map fun r => dUnpack (p.g1 + 1) (2 ^ p.g1) (shake256 (32 * (p.g1 + 1)) (rho'' ++ toLe 2 (kappa + r)))
  let ny := y.map dNtt
  let w := mat.map fun row => dNttInv (dDot row ny)
  let w1 := w.map fun f => f.map fun x => (decompose p.g2 x).1
  let ct := shake256 p.cLen (mu ++ p.w1Encode w1)
  let nc := dNtt (p.ball ct)
  let z := List.zipWith (padd dq) y (dMulAll blind 0 nc n1)
  let r := List.zipWith (psub dq) w (dMulAll blind 16 nc n2)
  let r0 := r.map fun f => f.map fun x => (decompose p.g2 x).2
  let ct0 := dMulAll blind 32 nc n0
  let rr := List.zipWith (padd dq) r ct0
  let h := List.zipWith (fun a b => (List.range 256).map fun i =>
    if (decompose p.g2 a[i]!).1 = (decompose p.g2 b[i]!).1 then 0 else 1) rr r
  if dNorm z ≥ 2 ^ p.g1 - p.beta ∨ dNorm r0 ≥ p.g2 - p.beta ∨ dNorm ct0 ≥ p.g2 ∨ (h.map List.sum).sum > p.omega then none
  else
    let pos := h.map fun row => (List.range 256).filter fun i => row.getD i 0 = 1
    let ends := (List.range p.k).map fun i => ((pos.take (i + 1)).map List.length).sum
    some (ct ++ (z.map (dPack (p.g1 + 1) (2 ^ p.g1))).flatten
      ++ padTo p.omega (pos.flatten.map (BitVec.ofNat 8 ·)) ++ ends.map (BitVec.ofNat 8 ·))

/-- Up to n iterations (R310 bounds them at 256). -/
def dsaLoop (f : Nat → Option Bytes) (l : Nat) : Nat → Nat → Option Bytes
  | 0, _ => none
  | n + 1, kappa =>
    match f kappa with
    | some s => some s
    | none => dsaLoop f l n (kappa + l)

/-- Sign a formatted message with randomness rnd; none past the iteration limit. -/
def dsaSign (alg : Nat) (blind seed msg rnd : Bytes) : Option Bytes :=
  let p := dsaSet alg
  let k := dsaKey alg seed
  let mat := (List.range p.k).map fun r => (List.range p.l).map (dMat k.rho r)
  let mu := shake256 64 (shake256 64 k.public ++ msg)
  let rho'' := shake256 64 (k.kk ++ rnd ++ mu)
  dsaLoop (dsaTry p blind mat (k.s1.map dNtt) (k.s2.map dNtt) (k.t0.map dNtt) mu rho'') p.l 256 0

/-- HintBitUnpack: the positions of each polynomial; none where the encoding is not the canonical one. -/
def DsaSet.hints (p : DsaSet) (b : Bytes) : Option (List (List Nat)) :=
  let ends := (b.drop p.omega).map (·.toNat)
  let rows := (List.range p.k).map fun i =>
    let a := if i = 0 then 0 else ends.getD (i - 1) 0
    ((b.take (ends.getD i 0)).drop a).map (·.toNat)
  let ordered := (List.range p.k).all fun i => (if i = 0 then 0 else ends.getD (i - 1) 0) ≤ ends.getD i 0 && ends.getD i 0 ≤ p.omega
  if ordered ∧ (rows.all fun r => (List.zip r (r.drop 1)).all fun x => x.1 < x.2)
      ∧ allZero ((b.take p.omega).drop (ends.getLastD 0)) then some rows else none

/-- UseHint. -/
def DsaSet.useHint (p : DsaSet) (h : Bool) (x : Nat) : Nat :=
  let d := decompose p.g2 x
  if h then (if 0 < d.2 ∧ d.2 ≤ dq / 2 then (d.1 + 1) % p.m else (d.1 + p.m - 1) % p.m) else d.1

/-- Verify a signature on a formatted message. (PRESUMED, log entry 10.) -/
def dsaVerify (alg : Nat) (pk msg sig : Bytes) : Bool :=
  let p := dsaSet alg
  let rho := pk.take 32
  let zLen := 32 * (p.g1 + 1)
  let t1 := (blocks 320 (pk.drop 32)).map fun b => ((unpackBits 10 b).map fun x => x * 8192 % dq).toArray
  let ct := sig.take p.cLen
  let z := (blocks zLen (slice sig p.cLen (zLen * p.l))).map (dUnpack (p.g1 + 1) (2 ^ p.g1))
  match p.hints (sig.drop (p.cLen + zLen * p.l)) with
  | none => false
  | some hs =>
    let mu := shake256 64 (shake256 64 pk ++ msg)
    let nc := dNtt (p.ball ct)
    let nz := z.map dNtt
    let w := (List.range p.k).map fun r =>
      dNttInv (psub dq (dDot ((List.range p.l).map (dMat rho r)) nz) (dMul nc (dNtt (t1.getD r pzero))))
    let w1 := (List.zip w hs).map fun x => ((List.range 256).map fun i => p.useHint (x.2.contains i) x.1[i]!).toArray
    dNorm z < 2 ^ p.g1 - p.beta && shake256 p.cLen (mu ++ p.w1Encode w1) == ct

end Sys2Proof.Machine
end

