-- ==== Sys2Proof/Machine/PublicKey.lean ====
section
/-! DEFINITION. Public-key opcodes (R301 to R316): what each computes, its validation, the slots it makes, and
PK_JOB_END. What is drawn comes from the generator (PRESUMED, log entry 44). -/

namespace Sys2Proof.Machine

/-! ## Public operations: a function of the operands, here or on a follower (R315, R316, R321) -/

/-- An invalid encoding in the operand of this location code (R308). -/
def pkBad (code : Nat) : PkOut := ⟨.pkInvalidInput, location code 0, []⟩

/-- OK with verdict 1, or AUTH_FAIL with verdict 2 (R198, R308). -/
def pkVerdict (b : Bool) : PkOut := if b then ⟨.ok, 1, []⟩ else ⟨.authFail, 2, []⟩

/-- OK with output bytes. -/
def pkOut (b : Bytes) : PkOut := ⟨.ok, b.length, b⟩

/-- The Weierstrass curve of an ALG. -/
def curveOf (alg : Nat) : Curve := if alg = 0x41 ∨ alg = 0x59 then p384 else p256

/-- The digest a scheme signs (R307): A itself where PREHASHED. -/
def pkDigest (opspec : Nat) (m : Bytes) : Bytes := if bit opspec 8 then m else digest (opspec % 256) 0 m

/-- The message ML-DSA signs (R307). -/
def dsaInput (opspec : Nat) (ctx m : Bytes) : Bytes := dsaMessage (if bit opspec 8 then some (opspec % 256) else none) ctx m

def verifyEc (w : FwdWork) : PkOut :=
  let c := curveOf w.alg
  let r := ofBe (w.b.take c.len)
  let s := ofBe (w.b.drop c.len)
  match c.decode w.d with
  | none => pkBad 5
  | some q =>
    if r = 0 ∨ c.n ≤ r ∨ s = 0 ∨ c.n ≤ s then pkBad 3
    else pkVerdict (c.verify (some q) (pkDigest w.opspec w.a) r s)

def verifyEd (w : FwdWork) : PkOut :=
  match edDecode w.d with
  | none => pkBad 5
  | some a =>
    if edSmall a then pkBad 5
    else match edDecode (w.b.take 32) with
      | none => pkBad 3
      | some r => if l25519 ≤ ofLe (w.b.drop 32) then pkBad 3 else pkVerdict (edVerify a r w.d w.b w.a)

def verifyRsa (w : FwdWork) : PkOut :=
  let k := w.d.length - 4
  let n := ofBe (w.d.take k)
  let e := ofBe (w.d.drop k)
  let s := ofBe w.b
  if bitLen n ≠ 8 * k ∨ n % 2 = 0 ∨ e % 2 = 0 ∨ e < 3 then pkBad 5
  else if n ≤ s then pkBad 3
  else
    let h := pkDigest w.opspec w.a
    let em := toBe k (powMod s e n)
    if w.alg = 0x44 then pkVerdict (pssVerify (w.opspec % 256) h em (8 * k))
    else pkVerdict (em == v15Encode (w.opspec % 256) h k)

/-- PK_VERIFY (R307, R308). -/
def runVerify (w : FwdWork) : PkOut :=
  match w.alg with
  | 0x40 | 0x41 => verifyEc w
  | 0x42 => verifyEd w
  | 0x44 | 0x45 => verifyRsa w
  | _ => pkVerdict (dsaVerify w.alg w.d (dsaInput w.opspec w.c w.a) w.b)

/-- MODEXP (R316). -/
def runModexp (w : FwdWork) : PkOut :=
  let m := ofBe w.c
  if m % 2 = 0 ∨ m < 3 then pkBad 4 else pkOut (toBe w.c.length (powMod (ofBe w.a) (ofBe w.b) m))

/-- A point result: infinity names operand B (R315). -/
def pointOut (c : Curve) (q : Pt) : PkOut := if q.isNone then pkBad 3 else pkOut (c.encode q)

/-- EC_POINT (R315). -/
def runPoint (w : FwdWork) : PkOut :=
  let c := curveOf w.alg
  match w.opspec % 256 with
  | 1 => pkVerdict (c.decode w.a).isSome
  | 2 =>
    match c.decode w.a, c.decode w.b with
    | none, _ => pkBad 2
    | _, none => pkBad 3
    | p, q => pointOut c (c.add p q)
  | 3 =>
    if w.alg = 0x5A then
      let z := x25519 w.b w.a
      if allZero z then pkBad 3 else pkOut z
    else match c.decode w.a with
      | none => pkBad 2
      | p => pointOut c (c.mul (ofBe w.b) p)
  | _ =>
    match c.decompress w.a with
    | none => pkBad 2
    | p => pkOut (c.encode p)

/-- A public operation. -/
def runPublic (w : FwdWork) : PkOut :=
  match w.opcode with
  | 0x0401 => runVerify w
  | 0x0405 => runModexp w
  | _ => runPoint w

/-- End a public operation: its output to operand D, then the completion (R321). -/
def State.publicEnd (s : State) (j : Job) (r : PkOut) : State :=
  if r.status = .ok ∧ r.out ≠ [] then s.writeEnd j (outBuf 5 (le j.raw 64 8) r.out) r.result
  else s.finish j r.status r.result

/-! ## Operations on private keys (R307, R309, R317) -/

/-- A scalar from drawn bytes, uniform choice of 1 to n − 1 (R309). -/
def scalarOf (n : Nat) (b : Bytes) : Nat := ofBe b % (n - 1) + 1

/-- A scalar of 1 to n − 1 by rejection sampling (FIPS 186-5): draws of len bytes until one, plus 1, lies below n. The first argument
bounds the recursion; a draw after it is reduced (DESIGN CHOICE, log entry 43). -/
def drawScalar (tc : Bool) (n len : Nat) : Nat → State → Nat × State
  | 0, s =>
    let r := s.drawBytes tc len
    (scalarOf n r.1, r.2)
  | k + 1, s =>
    let r := s.drawBytes tc len
    if ofBe r.1 ≤ n - 2 then (ofBe r.1 + 1, r.2) else drawScalar tc n len k r.2

/-- Blinding bytes that an operation on a private key of this ALG draws (R309, R317): 64-bit multiples, projective coordinates, the
message blind, shares (DESIGN CHOICE, log entry 43). -/
def blindLen (alg keyLen : Nat) : Nat :=
  match alg with
  | 0x40 | 0x41 | 0x58 | 0x59 => 8 + (curveOf alg).len
  | 0x42 | 0x5A => 40
  | 0x44 => 16 + keyLen * 2 / 5
  | _ => 32

/-- How a signature ends: its bytes, ML-DSA's iteration limit, or a check before release that disagrees (R302). -/
inductive SignEnd where
  | sig (b : Bytes)
  | limit
  | disagree
  deriving DecidableEq, Repr

/-- The bytes released. -/
def SignEnd.bytes : SignEnd → Bytes
  | .sig b => b
  | .limit | .disagree => []

/-- An RSA-PSS signature, released only where it verifies under the public exponent 65537 (R302, R314, R317). -/
def signRsa (opspec : Nat) (k m blind salt : Bytes) : SignEnd :=
  let key := RsaKey.ofBytes k
  let n := key.p * key.q
  let len := k.length * 2 / 5
  let em := ofBe (pssEncode (opspec % 256) (pkDigest opspec m) salt (bitLen n))
  let s := key.blinded (ofBe (blind.drop 16) % n) (ofBe (blind.take 8)) (ofBe (slice blind 8 8)) em
  if powMod s 65537 n = em then .sig (toBe len s) else .disagree

/-- The signature of a job's message under key k: what it draws besides its blinding, and how it ends (R307, R309, R317). -/
def State.signWith (s : State) (tc : Bool) (alg opspec : Nat) (k ctx m blind : Bytes) : SignEnd × State :=
  match alg with
  | 0x40 | 0x41 =>
    let c := curveOf alg
    let x := drawScalar tc c.n c.len 128 s
    let r := c.sign (ofBe (blind.take 8)) (ofBe k) x.1 (pkDigest opspec m)
    (.sig (toBe c.len r.1 ++ toBe c.len r.2), x.2)
  | 0x42 => (.sig (edSign (ofBe (blind.take 8)) k m), s)
  | 0x44 =>
    let r := s.drawBytes tc (digestLen (opspec % 256))
    (signRsa opspec k m blind r.1, r.2)
  | _ =>
    let r := s.drawBytes tc 32
    (match dsaSign alg blind k (dsaInput opspec ctx m) r.1 with
      | some b => .sig b
      | none => .limit, r.2)

/-- PK_SIGN (R307, R310); a signature that fails its check is a disagreement on engine e (R302). -/
def State.pkSign (s : State) (j : Job) (e : Fin 36) (blind : Bytes) : State :=
  let r := s.signWith j.tc j.alg j.opspec j.slotKey j.opC j.src blind
  match r.1 with
  | .sig b => r.2.writeEnd j (outBuf 3 (le j.raw 32 8) b) b.length
  | .limit => r.2.finish j .pkIterationLimit 256
  | .disagree => r.2.strike j e.val

/-- The shared secret of KEY_AGREE (R306, R308), its scalar or coordinates blinded (R317); none where the peer key or the result is
refused. (DEDUCED, log entry 25.) -/
def agree (alg : Nat) (k peer blind : Bytes) : Option Bytes :=
  if alg = 0x5A then
    let z := x25519Blind blind k peer
    if allZero z then none else some z
  else
    let c := curveOf alg
    match c.decode peer with
    | none => none
    | p =>
      match c.mul (ofBe k + ofBe (blind.take 8) * c.n) p with
      | none => none
      | some (x, _) =>
        let z := toBe c.len x
        some (if alg = 0x59 then digest 0x38 32 (toBe 4 1 ++ z) else z)

/-- A KDF slot for a shared secret, after the job's output writes where it has any (R209). (DEDUCED, log entry 25.). (DESIGN CHOICE, log entry 51.) -/
def State.secretSlot (s : State) (j : Job) (z : Bytes) (l : List Out) : State :=
  match s.place j.inst 1 with
  | none => s.finish j .keyNotReady 0
  | some (at_, s') =>
    match s.refused j.inst l with
    | some o => (s.countCheck false).finish j .regionViolation (location o.1 o.2.1)
    | none => ((s'.writeAll j l).2.install j.inst at_ (NewKey.plain z 0x01 0x04)).yieldSlot j at_

/-- KEY_AGREE (R209, R308). -/
def State.keyAgree (s : State) (j : Job) (blind : Bytes) : State :=
  match agree j.alg j.slotKey j.src blind with
  | none => s.finish j .pkInvalidInput (location 2 0)
  | some z => s.secretSlot j z []

/-- KEM_ENCAPS (R209, R308, R309). -/
def State.kemEncapsJob (s : State) (j : Job) : State :=
  if kemKeyOk j.alg j.src then
    let r := s.drawBytes j.tc 32
    let e := kemEncaps j.alg j.src r.1
    r.2.secretSlot j e.1 (outBuf 3 (le j.raw 32 8) e.2)
  else s.finish j .pkInvalidInput (location 2 0)

/-- KEM_DECAPS (R209, R317). -/
def State.kemDecapsJob (s : State) (j : Job) (blind : Bytes) : State := s.secretSlot j (kemDecaps j.alg blind j.slotKey j.src) []

/-! ## PK_KEYGEN (R312) -/

/-- Private key bytes from drawn bytes, and how many a keygen draws (R306, R309). -/
def privLen (alg : Nat) : Nat :=
  match alg with
  | 0x41 | 0x59 => 48
  | 0x50 | 0x51 | 0x52 => 64
  | _ => 32

def privOf (alg : Nat) (b : Bytes) : Bytes :=
  match alg with
  | 0x40 | 0x41 | 0x58 | 0x59 => toBe (curveOf alg).len (scalarOf (curveOf alg).n b)
  | _ => b

/-- The public key of a private key (R306). -/
def publicOf (alg : Nat) (k : Bytes) : Bytes :=
  match alg with
  | 0x40 | 0x41 | 0x58 | 0x59 => (curveOf alg).encode ((curveOf alg).mul (ofBe k) (curveOf alg).base)
  | 0x42 => edPublic k
  | 0x5A => x25519 k (9#8 :: zeros 31)
  | 0x50 | 0x51 | 0x52 => kemPublic alg (k.take 32)
  | _ => dsaPublic alg k

/-- Usage of a generated key (R209). -/
def keygenUsage (alg : Nat) : Nat := if alg ≤ 0x4A then 0x40 else if alg ≤ 0x52 then 0x41 else 0x42

/-- A private key drawn for an ALG: a scalar by rejection sampling, or seed bytes (R309). -/
def State.drawPriv (s : State) (tc : Bool) (alg : Nat) : Bytes × State :=
  match alg with
  | 0x40 | 0x41 | 0x58 | 0x59 =>
    let c := curveOf alg
    let x := drawScalar tc c.n c.len 128 s
    (toBe c.len x.1, x.2)
  | _ => s.drawBytes tc (privLen alg)

/-- PK_KEYGEN up to its public-key write: the run is reserved, with the evictions that takes, and the write checked and issued (R311,
R312). (DEDUCED, log entry 26.) -/
def State.keygen (s : State) (j : Job) : State :=
  let r := s.drawPriv j.tc j.alg
  let k := r.1
  match r.2.place j.inst (runLen k.length) with
  | none => r.2.finish j .keyNotReady 0
  | some (at_, s') =>
    let l := outBuf 3 (le j.raw 32 8) (publicOf j.alg k)
    match s'.refused j.inst l with
    | some o => (s'.countCheck false).finish j .regionViolation (location o.1 o.2.1)
    | none =>
      (s'.writeAll j l).2.updJob j.id fun x =>
        { x with phase := .keygen, released := outBytes l, pub := k, run := runLen k.length, runAt := at_ }

/-- The public-key write has its response: the private key goes into the reserved run, unless the job's hand is
superseded or its instance has FAILED. -/
def State.keygenDone (s : State) (j : Job) : State :=
  if s.superseded j then s.retire j .aborted 0
  else (s.install j.inst j.runAt (NewKey.plain j.pub (keygenUsage j.alg) (((typesFor j.alg).head?).getD 0))).yieldSlot j j.runAt

/-! ## PK_JOB_END -/

/-- Opcodes whose work draws from the generator (R309). -/
def pkDraws (op : Nat) : Bool := !(op ∈ [0x0401, 0x0405, 0x0406])

/-- The opcode works on a private key, so its run draws blinding values (R309, R317). -/
def pkBlinds (op : Nat) : Bool := op ∈ [0x0305, 0x0400, 0x0404]

/-- The blinding values of a run; every run draws its own (R302). -/
def State.drawBlind (s : State) (j : Job) : Bytes × State :=
  if pkBlinds j.opcode then s.drawBytes j.tc (blindLen j.alg j.slotKey.length) else ([], s)

/-- Every residue check of the job has agreed (R302). -/
def State.pkAgreed (s : State) (j : Job) (e : Fin 36) (blind : Bytes) : State :=
  match j.opcode with
  | 0x0305 => s.keyAgree j blind
  | 0x0400 => s.pkSign j e blind
  | 0x0402 => s.keygen j
  | 0x0403 => s.kemEncapsJob j
  | 0x0404 => s.kemDecapsJob j blind
  | _ => s.publicEnd j (runPublic j.work)

/-- What a run draws besides its blinding (R309): k, the salt or rnd of a signature, the private key of a keygen, the m of an encapsulation. (DESIGN CHOICE, log entry 43.) -/
def State.drawRun (s : State) (j : Job) : State :=
  match j.opcode with
  | 0x0400 =>
    match j.alg with
    | 0x40 | 0x41 => (drawScalar j.tc (curveOf j.alg).n (curveOf j.alg).len 128 s).2
    | 0x42 => s
    | 0x44 => (s.drawBytes j.tc (digestLen (j.opspec % 256))).2
    | _ => (s.drawBytes j.tc 32).2
  | 0x0402 => (s.drawPriv j.tc j.alg).2
  | 0x0403 => (s.drawBytes j.tc 32).2
  | _ => s

/-- A public-key job ends its run on engine e (R302, R325, R446). A run that is discarded has drawn too, so that a re-run draws other values
(R302). -/
def State.pkEnds (s : State) (j : Job) (e : Fin 36) (c : Compare) : State :=
  if s.superseded j then s.retire j .aborted 0
  else if pkDraws j.opcode && !s.rng.serves then s.finish j .entropyFail 0
  else
    let r := s.drawBlind j
    match r.2.compared e.val c with
    | .agree => r.2.pkAgreed j e r.1
    | .context => (r.2.drawRun j).poisonedRun j 0
    | c => (r.2.drawRun j).runFails j e c

/-- A forwarded job leaves its engine. -/
def State.fwdLeave (s : State) (f : FwdIn) : State :=
  let s := s.updCas fun c => { c with fwdRun := c.fwdRun.filter (·.id != f.id) }
  match f.engine with
  | some e => if h : e < 36 then s.updEng ⟨e, h⟩ fun g => g.leave f.id else s
  | none => s

/-- A forwarded job ends its run here: the answer goes to the originator, or the job runs again (R302, R321). -/
def State.fwdEnds (s : State) (f : FwdIn) (c : Compare) : State :=
  let out := s.fwdLeave f
  match s.compared (f.engine.getD 36) c with
  | .agree => out.cascadeSend f.src (.fwdResult f.job (runPublic f.work))
  | .differ =>
    let e := f.engine.getD 36
    let out := if h : e < 36 then
        ((out.updEng ⟨e, h⟩ fun g => { g with strikes := g.strikes + 1, inject := false }).count (engCounter ⟨e, h⟩) 2).updUnits
          fun u => { u with misses := u.misses ++ [(e, s.now)] }
      else out
    let failed := f.failedOn ++ [e]
    if 3 ≤ failed.length ∨ (out.engines .lf none).all fun x => failed.contains x.val then
      out.cascadeSend f.src (.fwdResult f.job ⟨.engineFault, 0, []⟩)
    else out.updCas fun c => { c with fwdIn := { f with engine := none, failedOn := failed } :: c.fwdIn }
  | .staging _ _ | .hold | .context | .key => out.cascadeSend f.src (.fwdResult f.job ⟨.engineFault, 0, []⟩)

/-- PK_JOB_END: the engine has run job id, or a forwarded job of that identity, to its end. -/
def execPkJobEnd (id : Nat) (c : Compare) (s : State) : Host.Outcome State Fault Refusal :=
  match s.job id with
  | some j =>
    match engineOf j.opcode, s.onEngine j with
    | some .lf, some e => .next (s.pkEnds j e c).serveWaiting
    | _, _ => .next s
  | none =>
    match s.cas.fwdRun.find? (·.id == id) with
    | some f => .next (s.fwdEnds f c).serveWaiting
    | none => .next s

def execKeyAgree (id : Nat) (s : State) : Host.Outcome State Fault Refusal := .next (s.begin id 0x0305).serveWaiting
def execPkSign (id : Nat) (s : State) : Host.Outcome State Fault Refusal := .next (s.begin id 0x0400).serveWaiting
def execPkVerify (id : Nat) (s : State) : Host.Outcome State Fault Refusal := .next (s.begin id 0x0401).serveWaiting
def execPkKeygen (id : Nat) (s : State) : Host.Outcome State Fault Refusal := .next (s.begin id 0x0402).serveWaiting
def execKemEncaps (id : Nat) (s : State) : Host.Outcome State Fault Refusal := .next (s.begin id 0x0403).serveWaiting
def execKemDecaps (id : Nat) (s : State) : Host.Outcome State Fault Refusal := .next (s.begin id 0x0404).serveWaiting
def execModexp (id : Nat) (s : State) : Host.Outcome State Fault Refusal := .next (s.begin id 0x0405).serveWaiting
def execEcPoint (id : Nat) (s : State) : Host.Outcome State Fault Refusal := .next (s.begin id 0x0406).serveWaiting

end Sys2Proof.Machine
end

