-- ==== Sys2Proof/Machine/FabricOps.lean ====
section
/-! DEFINITION. The fabric's responses (R59, R493): what a returned read does to the job or log update that asked for it
(R35, R286), and a write's response with what waits for it (R312, R340). -/

namespace Sys2Proof.Machine

/-- Offset of the first poisoned byte of a read (R219, R493). -/
def firstBad (beats : List Beat) : Option Nat := (beatPoison beats).findIdx? id

/-- The read has its response: its port's place goes to the next, and an error code is counted (R59, R390). -/
def State.readIn (s : State) (r : Rd) (beats : List Beat) : State :=
  let s := s.readDone r
  match worst beats with
  | .decode | .targetErr => s.count (0x2020 + r.port) 3
  | _ => s

/-- Data for a job crosses its sequencer's FIFOs, 32 + 8 × sequencer on (R448). (DEDUCED, log entry 21.) -/
def State.seqrCross (s : State) (j : Job) (beats : List Beat) : List Beat × State :=
  match j.seqr with
  | some c =>
    let w := s.fifoAny (32 + 8 * c.val) 8
    (if w.1 then poisonWord beats else beats, w.2)
  | none => (beats, s)

/-- A piece of job id has come with this data: when none is missing, the job goes on. -/
def State.joinPiece (s : State) (r : Rd) (id : Nat) (beats : List Beat) : State :=
  let s := s.updJob id fun k =>
    { k with pieces := k.pieces.map fun q =>
        if q.id = r.id then { q with data := some ((beatData beats).take r.len), bad := firstBad beats } else q }
  match s.job id with
  | none => s
  | some k =>
    if k.pieces.all (·.data.isSome) then
      if s.superseded k then s.retire k .aborted 0 else (s.arrived id).runPlain id
    else s

/-- The data of a job's read, where the job still waits for it. -/
def State.pieceIn (s : State) (r : Rd) (id : Nat) (beats : List Beat) : State :=
  match s.job id with
  | none => s
  | some j =>
    match j.pieces.find? (·.id == r.id) with
    | none => s
    | some p =>
      match worst beats with
      | .decode | .targetErr =>
        if s.superseded j then s.retire j .aborted 0 else s.finish j .fetchError (location p.part.code p.off)
      | _ =>
        let x := s.seqrCross j beats
        x.2.joinPiece r id x.1

/-- A read in flight returns (R59, R493). A ring's return is RING_READ_RETURN. (DEDUCED, log entry 5.) -/
def State.readReturn (s : State) (r : Rd) (beats : List Beat) : State :=
  match r.what with
  | .ring _ => s
  | .job id =>
    let x := (s.readIn r beats).fifoRead r beats
    x.2.pieceIn r id x.1
  | .log n =>
    let x := (s.readIn r beats).fifoRead r beats
    x.2.logRead n x.1

/-- FABRIC_READ_RESPONSE: a return without error that is shorter than the read is no answer to it; one to a read abandoned at a die reset
reaches no state (R491); one never issued, or not yet on its way, is outside the spec (DEDUCED, log entry 5). (DESIGN CHOICE, log
entry 42.) -/
def execFabricReadResponse (id : Nat) (beats : List Beat) (s : State) : Host.Outcome State Fault Refusal :=
  match s.fab.reads.find? (·.id == id) with
  | some r =>
    if r.out = false then .fault .neverIssued
    else if answers beats r.len = false then .next s else .next (s.readReturn r beats).serveWaiting
  | none => if s.fab.nextId ≤ id then .fault .neverIssued else .next s

/-- A PK_KEYGEN job whose public-key writes all have their responses installs its key (R312). -/
def State.afterWrite (s : State) (w : Wr) : State :=
  match w.what with
  | .data id _ =>
    match s.job id with
    | some j => if j.phase = .keygen ∧ s.dataOut id = false then s.keygenDone j else s
    | none => s
  | _ => s

/-- FABRIC_WRITE_RESPONSE (R59, R340). A response to an access abandoned at a die reset reaches no state (R491); one
never issued, or not yet on its way, is outside the spec (DEDUCED, log entry 5). (DESIGN CHOICE, log entry 42.) -/
def execFabricWriteResponse (id : Nat) (r : Resp) (s : State) : Host.Outcome State Fault Refusal :=
  match s.fab.writes.find? (·.id == id) with
  | some w =>
    if w.out = false then .fault .neverIssued else .next ((s.writeResponse w r).afterWrite w).serveWaiting
  | none => if s.fab.nextId ≤ id then .fault .neverIssued else .next s

end Sys2Proof.Machine
end

