-- ==== Sys2Proof/Machine/Flags.lean ====
section
/-! DEFINITION. Status bits and alarms: sensors and tamper latches (R74 to R76, R375, R455, R461), the alarm classes
(R456 to R458), the fault summary and its clearing (R459, R460), MGR_IRQ (R62), and OFL_AVAIL (R64, R277). -/

namespace Sys2Proof.Machine

/-! ## Logging -/

/-- Log now in RUN or COAST; otherwise at the next RUN (R54, R86). (DEDUCED, log entry 35.) -/
def State.logLive (s : State) (code : Nat) (detail : Bytes) : State :=
  if s.alive then s.logEvent code 0xFF detail
  else s.updSentry fun x => { x with late := x.late ++ [⟨code, detail⟩] }

/-- Log now in RUN; otherwise at the next RUN (R86, R477). (DEDUCED, log entry 35.) -/
def State.logRun (s : State) (code : Nat) (detail : Bytes) : State :=
  if s.alive && s.pwr.state == .run then s.logEvent code 0xFF detail
  else s.updSentry fun x => { x with late := x.late ++ [⟨code, detail⟩] }

/-- Log what has waited; a crystal that never came is a cause too (R54, R459). -/
def State.logOne (s : State) (e : LateEvent) : State :=
  (if e.code = 0x0010 then s.cause 19 else s).logEvent e.code 0xFF e.detail

/-- The next RUN has come: log what has waited for it. (DEDUCED, log entry 35.) -/
def State.flushLate (s : State) : State :=
  (s.each s.sentry.late State.logOne).updSentry fun x => { x with late := [] }

/-! ## Alarm classes (R456) -/

/-- DATA_HALT (R457): every ring that runs or has stopped shuts down without the walk, and deferred enables are cancelled. (DEDUCED, log entry 35.) -/
def State.haltData (s : State) : State :=
  let s := (s.updFlt fun f => { f with dataHalt := true }).cause 5
  s.each allSq fun s g =>
    match (s.sq g).state with
    | .enabled | .stopped => s.shutdown g false
    | .deferred => s.setSq g .draining
    | .disabled | .draining => s

/-- The previous KEYS alarm came less than 1 s before (R457). (DEDUCED, log entry 35.) -/
def State.keysSoon (s : State) : Bool :=
  match s.flt.lastKeys with
  | some t => decide (s.now < t + 10 ^ 9)
  | none => false

/-- A KEYS alarm (R456, R457); `err` is what direct-feed sessions on an erased slot show: ENGINE_FAULT for an alarm of R256, else
KEY_STALE (R298). (DEDUCED, log entry 35.) -/
def State.keysAlarm (s : State) (err : Nat) : State :=
  let soon := s.keysSoon
  let s := ((s.cause 4).logLive 0x0024 []).updFlt fun f => { f with lastKeys := some s.now }
  let s := s.eraseKeys err
  (if soon then s.haltData else s).serveWaiting

/-- Zero the vault (R51, R86), counted. -/
def State.zeroVault (s : State) : State := (s.updVault fun _ => Vault.zero).count 0x2017 2

/-- A TAMPER alarm, from these inputs and sensors (R75, R86, R456). Their latches show it in the fault summary; one without a latch is
shown as the KEYS alarm that it acts as (R459). (DEDUCED, log entry 35.) -/
def State.tamperAlarm (s : State) (inputs : BitVec 8) (sensors : BitVec 4) : State :=
  let s := (s.zeroVault.eraseKeys 5).logRun 0x0002 [inputs, BitVec.ofNat 8 sensors.toNat]
  (if s.alive && inputs == 0#8 && sensors == 0#4 then s.cause 4 else s).serveWaiting

/-! ## Tamper inputs (R74 to R76, R374, R375) -/

/-- An 8-bit mask of one input. -/
def inputBit (i : Fin 8) : BitVec 8 := BitVec.ofNat 8 (2 ^ i.val)

/-- A 4-bit mask of one sensor. -/
def sensorBit (k : Fin 4) : BitVec 4 := BitVec.ofNat 4 (2 ^ k.val)

/-- Class of an input now: with VBAT alone the first two are tamper-class and the others are not watched (R76). -/
def State.inputClass (s : State) (i : Fin 8) : TmpClass :=
  if s.pwr.state = .off then (if i.val < 2 then .tamper else .disabled) else s.tamper.cfg[i].cls

/-- The line is at its active level, or has left it. -/
def State.setLevel (s : State) (i : Fin 8) (active : Bool) : State :=
  s.updPins fun p => { p with tmpLevel := if active then p.tmpLevel ||| inputBit i else p.tmpLevel &&& ~~~inputBit i }

/-- The latch of input i sets, with the alarm of its class; a latch already set stays, and raises nothing new. (DEDUCED, log entry 26; DEDUCED, log entry 35.) -/
def State.catchInput (s : State) (i : Fin 8) : State :=
  let c := s.inputClass i
  if c = .disabled ∨ s.tamper.latched &&& inputBit i ≠ 0#8 then s
  else
    let s := s.updTamper fun t => { t with latched := t.latched ||| inputBit i }
    if c = .tamper then s.tamperAlarm (inputBit i) 0#4 else s.logLive 0x000A [inputBit i]

/-- TAMPER: a tamper-class input is caught; `stays` says that the line remains at its active level. -/
def execTamper (i : Fin 8) (stays : Bool) (s : State) : Host.Outcome State Fault Refusal :=
  let t := s.setLevel i stays
  .next (if s.inputClass i = .tamper then t.catchInput i else t)

/-- ALARM_INPUT: an alarm-only input is caught (R456). -/
def execAlarmInput (i : Fin 8) (stays : Bool) (s : State) : Host.Outcome State Fault Refusal :=
  let t := s.setLevel i stays
  .next (if s.inputClass i = .alarmOnly then t.catchInput i else t)

/-- A new class and active level of an input (R375): a change of ACTIVE clears the latch, and an input then at its
active level is caught at once; so is one enabled while it stands at its active level (R74). -/
def State.setTmpCfg (s : State) (i : Fin 8) (c : TmpCfg) : State :=
  let old := s.tamper.cfg[i]
  let s := s.updTamper fun t => { t with cfg := t.cfg.set i c }
  if old.high = c.high then (if s.pins.tmpLevel &&& inputBit i = 0#8 then s else s.catchInput i)
  else
    let active := (s.pins.tmpLevel &&& inputBit i) == 0#8
    let s := (s.updTamper fun t => { t with latched := t.latched &&& ~~~inputBit i }).setLevel i active
    if active then s.catchInput i else s

/-- TMP_CLEAR (R375): refused while an input it names is at its active level. (DESIGN CHOICE, log entry 49.) -/
def State.tmpClear (s : State) (mask : BitVec 8) : EStatus × State :=
  if s.pins.tmpLevel &&& mask ≠ 0#8 then (.stateConflict, s)
  else (.ok, s.updTamper fun t => { t with latched := t.latched &&& ~~~mask })

/-! ## Sensors (R455) -/

/-- Tamper-class now: MESH always, CLK and VDD in FIELD; TEMP never. -/
def State.sensorTamper (s : State) (k : Fin 4) : Bool :=
  k == 0 || ((k == 1 || k == 2) && s.life.fuse == .field)

/-- SENSOR: sensor k trips (0 MESH, 1 CLK, 2 VDD, 3 TEMP). With VBAT alone none is watched. -/
def State.sensorTrips (s : State) (k : Fin 4) (stays : Bool) : State :=
  if s.pwr.state = .off ∨ (k = 2 ∧ s.pins.pmRailsOk = false) then s
  else
    let s := s.updPins fun p =>
      { p with sensLevel := if stays then p.sensLevel ||| sensorBit k else p.sensLevel &&& ~~~sensorBit k }
    if s.tamper.sens &&& sensorBit k ≠ 0#4 then s
    else
      let s := s.updTamper fun t => { t with sens := t.sens ||| sensorBit k }
      if s.sensorTamper k then s.tamperAlarm 0#8 (sensorBit k)
      else
        let s := s.logLive 0x000B [BitVec.ofNat 8 (sensorBit k).toNat]
        if k = 3 then s.keysAlarm 5 else s

def execSensor (k : Fin 4) (stays : Bool) (s : State) : Host.Outcome State Fault Refusal := .next (s.sensorTrips k stays)

/-! ## VBAT, SCAN_MODE, SHUFFLE -/

/-- VBAT_LOSS (R51, R86): as a tamper alarm, but no input is logged. -/
def execVbatLoss (s : State) : Host.Outcome State Fault Refusal := .next (s.zeroVault.eraseKeys 5).serveWaiting

/-- SCAN_MODE_RISE (R56). (DEDUCED, log entry 26.) -/
def execScanModeRise (s : State) : Host.Outcome State Fault Refusal :=
  if s.life.fuse = .field then .next (s.tamperAlarm 0#8 0#4)
  else .next ((s.eraseCache 5).zeroise.updPwr fun p => { p with scan := true }).serveWaiting

/-- The reserve stepped forward by AES-256, block by block, under a key taken from it (R326; DESIGN CHOICE, log entry 43: bytes 64
to 95). -/
def stepReserve (r : Bytes) : Bytes := ((blocks 16 r).map (aesEnc (slice r 64 32))).flatten

/-- The mask reserve after a shuffle: refilled from the generator in RUN and COAST, else stepped by the sentry (R326). -/
def State.nextReserve (s : State) : State :=
  let r := if s.portAnswers && s.rng.serves then s.drawBytes false 256 else (stepReserve s.sentry.maskReserve, s)
  r.2.updSentry fun x => { x with maskReserve := r.1, maskDraws := 0 }

/-- A shuffle's draw: mask and permutation key from the mask reserve (DESIGN CHOICE, log entry 43: its bytes 0 to 63); the generator
refills it, or the sentry steps it forward, logged once outside FREEWHEEL (R84, R326). -/
def State.newMask (s : State) : State :=
  let r := s.sentry.maskReserve
  let s := (s.updVault fun v => { v with mask := slice r 0 32, permKey := slice r 32 32 }).nextReserve
  if s.tandemsRun && s.rng.out && !s.sentry.degraded then
    ((s.updSentry fun x => { x with degraded := true }).cause 12).logEvent 0x0014 0xFF []
  else s

/-- The items that carry a check word (R83, R456), by number: DUS, VRT and the ORTs; the pending roots; the counters, with the boot epoch,
the journal anchor and the card counters; the sentry keys. -/
def Vault.item (v : Vault) (k : Nat) : Bytes :=
  if k = 0 then v.dus.getD (zeros 32)
  else if h : k < 10 then (v.roots[k - 1]).getD (zeros 32)
  else if h : k < 19 then (v.pendRoots[k - 10]).getD (zeros 32)
  else if h : k < 83 then toLe 8 (v.counters[k - 19]).toNat
  else if k = 83 then toLe 8 v.bootEpoch
  else if k = 84 then toLe 8 v.journalAnchor
  else if h : k < 101 then toLe 8 (v.cardCounters[k - 85]).toNat
  else if h : k < 105 then ((v.sentry[k - 101]).map (·.key)).getD (zeros 32)
  else []

/-- The check word of an item as it stands in the vault. -/
def Vault.checkWord (v : Vault) (k : Nat) : BitVec 32 := Config.checkWord k (v.item k) ^^^ (v.flips.lookup k).getD 0#32

/-- Every check word suits its item, and every cell outside the map holds zero (R83, R456). -/
def Vault.sound (v : Vault) : Bool := (v.flips.all fun p => p.2 == 0#32 || 105 ≤ p.1) && v.outside.all fun p => p.2 == 0#8

/-- Cells of the vault have been upset. -/
def Vault.upset (v : Vault) (flips : List (Nat × BitVec 32)) (cells : List (Nat × Byte)) : Vault :=
  { v with flips := flips ++ v.flips, outside := cells ++ v.outside }

/-- SHUFFLE (R83, R84, R113, R326, R456): no shuffle with VBAT alone. -/
def State.shuffle (s : State) (flips : List (Nat × BitVec 32)) (cells : List (Nat × Byte)) : State :=
  if s.pwr.state = .off then s
  else
    let s := s.updVault fun v => v.upset flips cells
    if s.vault.sound then
      let s := s.newMask.count 0x2017 1
      let idle := (s.keys.slots.map (·.1)).filter fun i => s.jobs.all fun j => j.key != some i
      s.each idle fun s i => s.remask i
    else s.tamperAlarm 0#8 0#4

def execShuffle (flips : List (Nat × BitVec 32)) (cells : List (Nat × Byte)) (s : State) : Host.Outcome State Fault Refusal :=
  .next (s.shuffle flips cells)

/-! ## The fault summary -/

/-- Sensors that are tamper-class now, as a mask. -/
def State.sensTamperMask (s : State) : BitVec 4 := if s.life.fuse = .field then 0b0111#4 else 0b0001#4

/-- Inputs of a class, as a mask. -/
def State.inputMask (s : State) (c : TmpClass) : BitVec 8 :=
  (List.finRange 8).foldl (fun m i => if s.inputClass i = c then m ||| inputBit i else m) 0#8

/-- FAULT_SUMMARY (R459). -/
def State.faultSummary (s : State) : Word :=
  let t := s.tamper
  let b0 := (t.latched &&& s.inputMask .tamper) != 0#8 || (t.sens &&& s.sensTamperMask) != 0#4
  let b1 := (t.latched &&& s.inputMask .alarmOnly) != 0#8
  let b2 := (t.sens &&& ~~~s.sensTamperMask) != 0#4
  BitVec.ofNat 64 (flag b0 + 2 * flag b1 + 4 * flag b2 + (s.flt.causes &&& 0xFFFFF8#24).toNat
    + 2 ^ 32 * flag s.flt.tandems[0].inService + 2 ^ 33 * flag s.flt.tandems[1].inService
    + 2 ^ 34 * flag s.units.fenced[0] + 2 ^ 35 * flag s.units.fenced[1] + 2 ^ 36 * flag s.units.fenced[2]
    + 2 ^ 37 * flag s.units.fenced[3])

/-- TAMPER_STATUS (R461). -/
def State.tamperStatus (s : State) : Word :=
  BitVec.ofNat 64 (s.tamper.latched.toNat + 2 ^ 8 * s.pins.tmpLevel.toNat + 2 ^ 16 * s.tamper.sens.toNat
    + 2 ^ 20 * s.pins.sensLevel.toNat)

/-- MGR_IRQ (R62, R459, R386): low in die reset and outside RUN and COAST (R47). -/
def State.mgrIrq (s : State) : Bool :=
  s.portAnswers &&
    ((s.faultSummary &&& 7#64) != 0#64
      || (s.flt.causes &&& 0xFFFFF8#24 &&& s.cfg.mgrIrqMask.setWidth 24) != 0#24)

/-- Causes whose condition holds now (R460). -/
def State.standing (s : State) : BitVec 24 :=
  let b (i : Nat) (p : Bool) : BitVec 24 := if p then BitVec.ofNat 24 (2 ^ i) else 0#24
  b 5 s.flt.dataHalt ||| b 9 (s.flt.tandems[0].inService != s.flt.tandems[1].inService) ||| b 11 s.rng.out
    ||| b 12 (s.sentry.degraded && s.rng.out) ||| b 15 s.jnl.rpmb.foreign ||| b 16 (s.jnl.state == .failed) ||| b 18 (!s.pins.tbValid)
    ||| b 20 (s.cas.role == .cutOff) ||| b 21 (s.pwr.boot == .romMode)

/-- A write of FAULT_CLEAR (R460): CLR clears causes except those whose condition holds; SENS_CLR clears the latches of
sensors that are not tripped. -/
def State.faultClear (s : State) (v : Word) : State :=
  let clr := v.setWidth 24 &&& 0xFFFFF8#24
  let s := s.updFlt fun f => { f with causes := (f.causes &&& ~~~clr) ||| (f.causes &&& s.standing) }
  let sens := (v >>> 24).setWidth 4 &&& ~~~s.pins.sensLevel
  s.updTamper fun t => { t with sens := t.sens &&& ~~~sens }

/-- FAULT_CLEAR: a write of the register. -/
def execFaultClear (a : Tgt) (v : Word) (s : State) : Host.Outcome State Fault Refusal :=
  .next (s.clearWrite a fun s => if a.hasLow then s.faultClear v else s)

/-- SENS_CLR: a write of the same register. -/
def execSensClr (a : Tgt) (v : Word) (s : State) : Host.Outcome State Fault Refusal :=
  .next (s.clearWrite a fun s => if a.hasLow then s.faultClear v else s)

/-- TIME_LOST is logged and counted, with its cause (R78, R390, R459). -/
def State.logTimeLost (s : State) : State := ((s.logEvent 0x0011 0xFF []).cause 18).count 0x201F 2

/-! ## OFL_AVAIL -/

/-- OFL_AVAIL (R64, R277): the lanes are enabled, the block is in RUN or COAST, and a lane is left. -/
def State.oflAvail (s : State) : Bool :=
  s.alive && s.cfg.edgeEnable && (List.finRange 36).any fun e => 28 ≤ e.val && s.serves e none

/-- OFL_RX_READY: the queue of R275 has room. (DESIGN CHOICE, log entry 20.) -/
def State.oflRxReady (s : State) : Bool := s.oflAvail && decide (s.edge.queue.length < 64)

/-- The block serves no more jobs until the next die reset, in ROM mode or with both tandems out: KB_ZEROISE stands high (R492) and
KB_VALID low (R67), and with OFL_AVAIL low the queue of frames is emptied (R275). -/
def State.standStill (s : State) : State :=
  (s.updPins fun p => { p with kbZeroise := true, kb := none }).updEdge fun e => { e with queue := [] }

end Sys2Proof.Machine
end

