-- ==== Sys2Proof/Machine/Edge.lean ====
section
/-! DEFINITION. The edge unit (R267 to R277) and the reserved offload channels (R63): frames in, lanes, freshness,
verdicts, and the edge key table's load and free. -/

namespace Sys2Proof

open Sys2Proof.Machine

/-- Fields of a descriptor beat (R269). -/
def OflFrame.dataId (f : OflFrame) : Nat := le f.desc 4 2
def OflFrame.ctl (f : OflFrame) : Nat := le f.desc 6 2
def OflFrame.plen (f : OflFrame) : Nat := bits (f.ctl) 11 0
def OflFrame.generate (f : OflFrame) : Bool := bit f.ctl 12
def OflFrame.fv (f : OflFrame) : Nat := le f.desc 8 8

/-- FORMAT (R270): PLEN disagrees with the payload or exceeds 2,048 (R269), or a reserved bit is set. (DEDUCED, log entry 27.) -/
def OflFrame.badFormat (f : OflFrame) : Bool := f.plen != f.payload.length || decide (2048 < f.plen) || bits f.ctl 15 13 != 0

end Sys2Proof

namespace Sys2Proof.Machine

/-! ## Descriptor and entry -/

def EdgeEntry.generates (x : EdgeEntry) : Bool := bit x.mode 0
def EdgeEntry.external (x : EdgeEntry) : Bool := bit x.mode 1

/-- The loaded entry of a frame (R270). -/
def State.edgeEntry (s : State) (f : OflFrame) : Option (Nat × EdgeEntry) :=
  s.edge.table.find? fun p => p.2.chan == f.chan.val && p.2.dataId == f.dataId && p.2.generates == f.generate

/-! ## Freshness (R271) -/

/-- The candidate value c. (DEDUCED, log entry 27.) -/
def EdgeEntry.candidate (x : EdgeEntry) (fv : Nat) : Nat :=
  if x.external ∨ (x.txBits = 64 ∧ !x.generates) then fv
  else if x.generates ∨ x.txBits = 0 then x.fvLast + 1
  else
    let c := x.fvLast - x.fvLast % 2 ^ x.txBits + fv % 2 ^ x.txBits
    if c ≤ x.fvLast then c + 2 ^ x.txBits else c

/-- The largest freshness value M. -/
def EdgeEntry.top (x : EdgeEntry) : Nat := 2 ^ (8 * x.fvLen) - 1

/-- The candidate is fresh. (DEDUCED, log entry 27.) -/
def EdgeEntry.fresh (x : EdgeEntry) (c : Nat) : Bool :=
  if x.generates then (if x.external then x.fvLast < c && c ≤ x.top else c ≤ x.top)
  else if !x.external && x.txBits == 0 then true
  else x.fvLast < c && c ≤ x.fvLast + x.window && c ≤ x.top

/-- The truncated MAC of a frame (R268). -/
def EdgeEntry.mac (x : EdgeEntry) (f : OflFrame) (c : Nat) : Bytes :=
  (cmac (xorB x.shareA x.shareB) (toBe 2 f.dataId ++ f.payload ++ toBe x.fvLen c)).take (x.macBits / 8)

/-! ## Verdicts (R270) -/

/-- A verdict beat. -/
def verdictBeat (f : OflFrame) (code fv : Nat) (mac : Bytes) : Bytes :=
  f.desc.take 6 ++ [BitVec.ofNat 8 code, 0#8] ++ toLe 8 fv ++ padTo 16 mac

/-- Present a verdict on the frame's channel; verdicts of different channels leave in the order they are ready. -/
def State.verdict (s : State) (f : OflFrame) (code fv : Nat) (mac : Bytes) : State :=
  s.updEdge fun e => { e with verdicts := e.verdicts ++ [(f.chan.val, verdictBeat f code fv mac)] }

/-- Verdict code, freshness value and MAC of a frame under entry x, and what becomes of the entry (R270, R271). -/
def EdgeEntry.judge (x : EdgeEntry) (f : OflFrame) : (Nat × Nat × Bytes) × EdgeEntry :=
  let c := x.candidate f.fv
  let m := x.mac f c
  if !x.fresh c then
    ((if x.generates then (0x07, 0, []) else (0x03, c, [])), { x with freshFails := (x.freshFails + 1) % 2 ^ 32 })
  else if !x.generates && m != slice f.desc 16 (x.macBits / 8) then
    ((0x02, c, []), { x with macFails := (x.macFails + 1) % 2 ^ 32 })
  else ((0x01, c, if x.generates then m else []), { x with fvLast := c, accepts := (x.accepts + 1) % 2 ^ 32 })

/-- The entry a frame started under takes its new values, unless it has been replaced or emptied since (R273). (DEDUCED, log entry 27.) -/
def State.setEntry (s : State) (k : Nat) (x : EdgeEntry) : State :=
  s.updEdge fun e => { e with table := e.table.map fun p => if p.1 = k ∧ p.2.load = x.load then (k, x) else p }

/-- The entry as it stands now for a frame that started under x: the table's, or the old one once replaced (R273). (DEDUCED, log entry 27.) -/
def State.entryNow (s : State) (k : Nat) (x : EdgeEntry) : EdgeEntry :=
  match s.edge.table.lookup k with
  | some y => if y.load = x.load then y else x
  | none => x

/-! ## Lanes -/

/-- Engine number of a lane. -/
def laneEng (l : Fin 8) : Fin 36 := ⟨28 + l.val, by omega⟩

/-- Lanes in service that a frame has not failed on. -/
def State.lanesFor (s : State) (j : EdgeJob) : List (Fin 8) :=
  (List.finRange 8).filter fun l => s.serves (laneEng l) none && !j.avoid.contains l.val

/-- The free lane a frame goes to. -/
def State.freeLane (s : State) (j : EdgeJob) : Option (Fin 8) := (s.lanesFor j).find? fun l => s.edge.lanes[l].isNone

/-- No earlier frame of the same channel is in process or before it in the queue. -/
def Edge.turn (e : Edge) (before : List EdgeJob) (j : EdgeJob) : Bool :=
  before.all (fun k => k.frame.chan != j.frame.chan)
    && e.lanes.toList.all fun k => k.all fun k => k.frame.chan != j.frame.chan

/-- The entry a frame runs under: the one it started under, or the one loaded now. -/
def State.jobEntry (s : State) (j : EdgeJob) : Option (Nat × EdgeEntry) :=
  match j.entry with
  | some x => some x
  | none => if j.frame.badFormat then none else s.edgeEntry j.frame

/-- What a frame whose turn it is does now: answered at once, given a lane, or waiting (none). A frame with a poisoned word receives
LANE_FAULT (R447). -/
def State.startFrame (s : State) (j : EdgeJob) : Option State :=
  if j.poison then some (s.verdict j.frame 0x06 0 []) else
  match s.jobEntry j with
  | none =>
    if j.frame.badFormat then some ((s.count 0x201B 2).verdict j.frame 0x05 0 [])
    else some ((s.count 0x201B 3).verdict j.frame 0x04 0 [])
  | some x =>
    match s.freeLane j with
    | some l =>
      some ((s.updEdge fun e => { e with lanes := e.lanes.set l (some { j with entry := some x }) }).count
        (engCounter (laneEng l)) 1)
    | none => if s.lanesFor j = [] then some (s.verdict j.frame 0x06 0 []) else none

/-- The first frame of the queue that can go on does so. -/
def startFirst (s : State) : List EdgeJob → List EdgeJob → Option State
  | _, [] => none
  | before, j :: rest =>
    if s.edge.turn before j then
      match s.startFrame j with
      | some t => some (t.updEdge fun e => { e with queue := before ++ rest })
      | none => startFirst s (before ++ [j]) rest
    else startFirst s (before ++ [j]) rest

/-- Start frames while any can go on. The first argument bounds the recursion. -/
def startFrames : Nat → State → State
  | 0, s => s
  | k + 1, s =>
    match startFirst s [] s.edge.queue with
    | some t => startFrames k t
    | none => s

/-- Serve the queue; with OFL_AVAIL low it is emptied without verdicts (R275). -/
def State.serveEdge (s : State) : State :=
  if s.oflAvail then startFrames s.edge.queue.length s
  else s.updEdge fun e => { e with queue := [] }

/-! ## The commands -/

/-- A frame offered on an edge channel: it is accepted while OFL_AVAIL is high and the queue has room (R64, R275). -/
def State.edgeFrame (s : State) (f : OflFrame) : State :=
  if f.chan.val < 96 ∧ s.oflRxReady then
    let w := (s.count 0x201B 1).fifoWord 192
    (w.2.updEdge fun e => { e with queue := e.queue ++ [⟨f, none, 0, [], w.1⟩] }).serveEdge
  else s

def execEdgeVerify (f : OflFrame) (s : State) : Host.Outcome State Fault Refusal :=
  .next (if f.generate then s else s.edgeFrame f)

def execEdgeGenerate (f : OflFrame) (s : State) : Host.Outcome State Fault Refusal :=
  .next (if f.generate then s.edgeFrame f else s)

/-- Take the frame off lane l. -/
def State.clearLane (s : State) (l : Fin 8) : State := s.updEdge fun e => { e with lanes := e.lanes.set l none }

/-- A frame goes back to the head of the queue. -/
def State.requeue (s : State) (j : EdgeJob) : State := s.updEdge fun e => { e with queue := j :: e.queue }

/-- A disagreement on lane l (R254, R277). -/
def State.laneStrike (s : State) (l : Fin 8) : State :=
  ((s.updEng (laneEng l) fun g => { g with strikes := g.strikes + 1, inject := false }).updUnits fun u =>
    { u with misses := u.misses ++ [((laneEng l).val, s.now)] }).count (engCounter (laneEng l)) 2

/-- The verdict of a frame that a lane computed under entry k, on its way to the offload port; a word poisoned there makes it
LANE_FAULT, with FV_LAST unchanged (R447). -/
def State.laneVerdict (s : State) (j : EdgeJob) (k : Nat) (x : EdgeEntry) : State :=
  let w := s.fifoWord 193
  if w.1 then w.2.verdict j.frame 0x06 0 []
  else
    let r := (w.2.entryNow k x).judge j.frame
    (w.2.setEntry k r.2).verdict j.frame r.1.1 r.1.2.1 r.1.2.2

/-- Entry k of the edge key table held poison: it is emptied, and the frame that met it receives NO_ENTRY (R446). -/
def State.poisonEntry (s : State) (j : EdgeJob) (k : Nat) (x : EdgeEntry) : State :=
  let s := s.updEdge fun e => { e with table := e.table.filter fun p => !(p.1 == k && p.2.load == x.load) }
  (s.count 0x201B 3).verdict j.frame 0x04 0 []

/-- Lane l ends its frame (R270, R271, R277). (DEDUCED, log entry 27.) -/
def State.laneDone (s : State) (l : Fin 8) (e : LaneEnd) : State :=
  match s.edge.lanes[l] with
  | none => s
  | some j =>
    let c := s.compared (laneEng l).val (if e = .differ then .differ else .agree)
    let s := s.clearLane l
    let s :=
      if c = .agree then
        match j.entry with
        | some (k, x) => if e = .entry then s.poisonEntry j k x else s.laneVerdict j k x
        | none => s
      else
        let s := s.laneStrike l
        if 1 ≤ j.runs then s.verdict j.frame 0x06 0 []
        else s.requeue { j with runs := j.runs + 1, avoid := l.val :: j.avoid }
    s.serveEdge

def execEdgeLaneDone (l : Fin 8) (e : LaneEnd) (s : State) : Host.Outcome State Fault Refusal := .next (s.laneDone l e)

/-- RESERVED_CHANNEL_FRAME (R63): dropped and counted. -/
def execReservedChannelFrame (f : OflFrame) (s : State) : Host.Outcome State Fault Refusal :=
  if 97 ≤ f.chan.val ∧ s.oflRxReady then .next (s.count 0x201C 1) else .next s

/-- A beat of up to 32 bytes of the frame under way on channel 96 is taken; the frame goes with its last one (R63, R359). -/
def Eoa.beat (e : Eoa) : Eoa :=
  match e.out with
  | [] => e
  | f :: rest => if f.length ≤ e.taken + 32 then { e with out := rest, taken := 0 } else { e with taken := e.taken + 32 }

/-- A frame on channel 96 is under way, or no verdict waits: the beat on OFL_TX is that frame's (DEDUCED, log entry 21). -/
def State.txFrame (s : State) : Bool := s.eoa.taken != 0 || s.edge.verdicts.isEmpty

/-- The beat presented on OFL_TX is taken. (DEDUCED, log entry 21.) -/
def State.takeBeat (s : State) : State :=
  if s.txFrame then s.updEoa Eoa.beat else s.updEdge fun e => { e with verdicts := e.verdicts.drop 1 }

/-- OFL_TX_READY (R63, R275): the beat presented is taken, and the next one stands on OFL_TX. Nothing is presented while OFL_AVAIL is
low (R64). -/
def execOflTxReady (s : State) : Host.Outcome State Fault Refusal := .next (if s.oflAvail then s.takeBeat else s)

/-! ## EDGE_LOAD and EDGE_FREE (R273, R274) -/

/-- A load record's fields lie in their ranges. -/
def loadOk (b : Bytes) : Bool :=
  b.length == 32 && decide (le b 0 2 ≤ 511) && decide (byteAt b 8 ≤ 95) && decide (byteAt b 9 < 4)
    && decide (24 ≤ byteAt b 10 ∧ byteAt b 10 ≤ 128 ∧ byteAt b 10 % 8 = 0)
    && decide (byteAt b 11 ≤ 64 ∧ byteAt b 11 ≤ 8 * byteAt b 12) && decide (1 ≤ byteAt b 12 ∧ byteAt b 12 ≤ 8)
    && allZero (slice b 13 3) && decide (le b 16 8 ≤ 2 ^ (8 * byteAt b 12) - 1) && le b 24 4 != 0 && allZero (slice b 28 4)

/-- STATE_CONFLICT of an EDGE_LOAD by n, other than a stale handle. -/
def State.loadConflict (s : State) (n : Fin 128) (b : Bytes) : Bool :=
  let k := le b 0 2
  s.edge.table.any (fun p => p.1 == k && p.2.owner != n)
    || s.edge.table.any (fun p => p.1 != k && p.2.chan == byteAt b 8 && p.2.dataId == le b 2 2 && p.2.generates == bit (byteAt b 9) 0)
    || (s.edge.table.all (·.1 != k) && decide ((s.inst n).live.edgeQuota ≤ (s.edge.table.filter (·.2.owner == n)).length))

/-- EDGE_LOAD by instance n. A load poisoned on its way, in crossing FIFO 194, leaves the entry empty (R446, R448). (DEDUCED, log entry 21.) -/
def State.edgeLoad (s : State) (n : Fin 128) (b : Bytes) : EStatus × State :=
  if !loadOk b then (.range, s)
  else if s.cfg.chanOwner.toList.getD (byteAt b 8) none ≠ some n then (.accessDenied, s)
  else
    match s.handleSlot n (le b 4 4) with
    | .error .keyPolicy => (.accessDenied, s)
    | .error _ => (.stateConflict, s)
    | .ok (_, x) =>
      if x.usage ≠ 0x31 ∨ x.key.length ≠ 16 ∨ x.sealedOnly then (.accessDenied, s)
      else if x.evicting.isSome || s.loadConflict n b then (.stateConflict, s)
      else
        let r := s.splitKey x.key
        let e : EdgeEntry :=
          { owner := n, chan := byteAt b 8, dataId := le b 2 2, mode := byteAt b 9, macBits := byteAt b 10, txBits := byteAt b 11
            fvLen := byteAt b 12, fvLast := le b 16 8, window := le b 24 4, shareA := r.1.1, shareB := r.1.2, root := x.root
            accepts := 0, macFails := 0, freshFails := 0, load := s.edge.loads }
        let w := r.2.fifoWord 194
        (.ok, (w.2.updEdge fun d =>
          { d with table := if w.1 then d.table.filter (·.1 != le b 0 2) else assocSet d.table (le b 0 2) e
                   loads := d.loads + 1 }).serveEdge)

/-- EDGE_FREE of entry k, by instance n or (none) the manager. -/
def State.edgeFree (s : State) (by_ : Option (Fin 128)) (k : Nat) : EStatus × State :=
  if 512 ≤ k then (.range, s)
  else
    match by_, s.edge.table.lookup k with
    | some n, some x => if x.owner = n then (.ok, s.updEdge fun e => { e with table := e.table.filter (·.1 != k) }) else (.accessDenied, s)
    | some _, none => (.accessDenied, s)
    | none, _ => (.ok, s.updEdge fun e => { e with table := e.table.filter (·.1 != k) })

end Sys2Proof.Machine
end

