-- ==== Sys2Proof/Machine/Transport.lean ====
section
/-! DEFINITION. How EOA PDUs leave: sealing (R356, R368), the output buffer of the tandem (R452), and ISO 15765-2 over CAN
FD (R361). -/

namespace Sys2Proof.Machine

/-! ## PDUs -/

/-- Header of a PDU of `len` bytes (R356). -/
def pduHead (type len session seq : Nat) : Bytes := [1#8] ++ toLe 1 type ++ toLe 2 len ++ toLe 4 session ++ toLe 8 seq

/-- The nonce of a protected PDU (R368). -/
def pduNonce (iv : Bytes) (seq : Nat) : Bytes := xorB iv (zeros 4 ++ toBe 8 seq)

/-- A protected PDU of the block (R356, R368). -/
def Session.protect (x : Session) (type seq : Nat) (body : Bytes) : Bytes :=
  let head := pduHead type (32 + body.length) x.number seq
  let ct := gcmCrypt x.kOut (pduNonce x.ivOut seq) body
  head ++ ct ++ gcmTag x.kOut (pduNonce x.ivOut seq) head ct

/-- The body of a client's protected PDU; none where its tag fails. -/
def Session.unprotect (x : Session) (pdu : Bytes) : Option Bytes :=
  let n := le pdu 2 2
  let head := pdu.take 16
  let ct := slice pdu 16 (n - 32)
  let iv := pduNonce x.ivIn (le pdu 8 8)
  if 32 ≤ n ∧ gcmTag x.kIn iv head ct = slice pdu (n - 16) 16 then some (gcmCrypt x.kIn iv ct) else none

/-- An ERROR PDU in session `num`, 0 before the block has chosen one (R356). (DEDUCED, log entry 34.) -/
def errorPdu (st : EStatus) (num : Nat) : Bytes := pduHead 0x20 20 num 0 ++ toLe 2 st.code ++ zeros 2

/-- Fragments of a handshake message (R356). -/
def handshake (type session : Nat) (msg : Bytes) : List Bytes :=
  let parts := blocks 1476 msg
  parts.zipIdx.map fun p =>
    pduHead type (24 + p.1.length) session 0 ++ toLe 1 p.2 ++ toLe 1 parts.length ++ zeros 2 ++ toLe 4 msg.length ++ p.1

/-- A PDU joins the output buffer, until the next checkpoint (R452). -/
def State.sendPdu (s : State) (via : Via) (port : Nat) (pdu : Bytes) : State :=
  s.updEoa fun e => { e with held := e.held ++ [⟨via, port, pdu⟩] }

def State.sendPdus (s : State) (via : Via) (port : Nat) (l : List Bytes) : State :=
  s.each l fun s p => s.sendPdu via port p

/-! ## Frames of channel 96 (R359) -/

/-- A descriptor beat (R359). -/
def eoaBeat (kind port flen canId : Nat) : Bytes := toLe 1 kind ++ toLe 1 port ++ toLe 2 flen ++ toLe 4 canId ++ zeros 24

/-- A frame leaves for channel 96; a word poisoned on its way drops it (R447). -/
def State.sendFrame (s : State) (kind port canId : Nat) (frame : Bytes) : State :=
  let w := s.fifoWord 196
  if w.1 then w.2 else w.2.updEoa fun e => { e with out := e.out ++ [eoaBeat kind port frame.length canId ++ frame] }

/-- An Ethernet frame of the block without its FCS, padded to 60 bytes (R360; PRESUMED, log entry 34). -/
def State.ethFrame (s : State) (dst tag pdu : Bytes) : Bytes :=
  let f := dst ++ s.cfg.eoaMac ++ tag ++ toBe 2 s.cfg.eoaEtherType ++ pdu
  f ++ zeros (60 - f.length)

/-! ## ISO 15765-2 -/

/-- Change a binding's transport state. -/
def State.updTp (s : State) (b : Fin 4) (f : IsoTp → IsoTp) : State := s.updEoa fun e => { e with tp := e.tp.set b (f e.tp[b]) }

/-- Parts of CAN_BIND (R362). -/
def State.bindOn (s : State) (b : Fin 4) : Bool := decide (byteAt s.cfg.canBinds[b] 0 ≤ 63)
def State.bindBs (s : State) (b : Fin 4) : Nat := byteAt s.cfg.canBinds[b] 12
def State.bindStmin (s : State) (b : Fin 4) : Nat := byteAt s.cfg.canBinds[b] 13
def State.bindPad (s : State) (b : Fin 4) : Byte := s.cfg.canBinds[b].getD 14 0#8

/-- The next valid CAN FD length. -/
def canLen (n : Nat) : Nat := ([8, 12, 16, 20, 24, 32, 48].find? fun k => decide (n ≤ k)).elim 64 fun k => if k = 8 then n else k

/-- CAN_ID of an identifier of binding b: its 29 bits, and IDE in bit 31 (R359, R362). -/
def State.canId (s : State) (b : Fin 4) (off : Nat) : Nat :=
  le s.cfg.canBinds[b] off 4 % 2 ^ 29 + 2 ^ 31 * flag (bit (byteAt s.cfg.canBinds[b] 1) 0)

/-- Send one CAN frame under RSP_ID, padded (R361, R362). -/
def State.canSend (s : State) (b : Fin 4) (data : Bytes) : State :=
  s.sendFrame 2 (byteAt s.cfg.canBinds[b] 0) (s.canId b 8) (data ++ List.replicate (canLen data.length - data.length) (s.bindPad b))

/-- Start a PDU on an idle binding: a single frame with the length escape, or a first frame. -/
def State.canStart (s : State) (b : Fin 4) (pdu : Bytes) : State :=
  if pdu.length ≤ 62 then s.canSend b ([0#8] ++ toLe 1 pdu.length ++ pdu)
  else
    (s.canSend b (toBe 2 (0x1000 + pdu.length) ++ pdu.take 62)).updTp b fun t => { t with tx := some (pdu.drop 62), txSn := 1 }

/-- Start queued PDUs until one waits for flow control. The first argument bounds the recursion. -/
def canNext : Nat → State → Fin 4 → State
  | 0, s, _ => s
  | k + 1, s, b =>
    match s.eoa.tp[b].tx, s.eoa.tp[b].queue with
    | none, p :: rest => canNext k ((s.updTp b fun t => { t with queue := rest }).canStart b p) b
    | _, _ => s

/-- The PDUs of a binding go on. -/
def State.canGo (s : State) (b : Fin 4) : State := canNext (s.eoa.tp[b].queue.length) s b

/-- One PDU leaves: over Ethernet at once, over CAN FD behind those of its binding. -/
def State.leave (s : State) (p : EoaOut) : State :=
  match p.via with
  | .can b => (s.updTp b fun t => { t with queue := t.queue ++ [p.pdu] }).canGo b
  | .eth src tag => s.sendFrame 1 p.port 0 (s.ethFrame src tag p.pdu)

/-- Release the PDUs that wait in the output buffer (R452). -/
def State.releaseEoa (s : State) : State :=
  let l := s.eoa.held
  (s.updEoa fun e => { e with held := [] }).each l fun s p => s.leave p

/-- Send up to n consecutive frames of the response under way. -/
def canFrames : Nat → State → Fin 4 → State
  | 0, s, _ => s
  | n + 1, s, b =>
    match s.eoa.tp[b].tx with
    | none => s
    | some rest =>
      let sn := s.eoa.tp[b].txSn
      let s := s.canSend b ((BitVec.ofNat 8 (0x20 + sn % 16)) :: rest.take 63)
      if rest.length ≤ 63 then (s.updTp b fun t => { t with tx := none }).canGo b
      else canFrames n (s.updTp b fun t => { t with tx := some (rest.drop 63), txSn := sn + 1 }) b

/-- Flow control from the client: continue to send, wait, or overflow. (DEDUCED, log entry 34.) -/
def State.canFlow (s : State) (b : Fin 4) (data : Bytes) : State :=
  match s.eoa.tp[b].tx with
  | none => s
  | some rest =>
    match byteAt data 0 % 16 with
    | 0 =>
      let bs := byteAt data 1
      canFrames (if bs = 0 then rest.length + 1 else bs) s b
    | 1 => s
    | _ => (s.updTp b fun t => { t with tx := none }).canGo b

/-- N_Bs has passed and the transmission ends, or N_Cr and the reception (R361). (DEDUCED, log entry 34.) -/
def State.canTimeout (s : State) (b : Fin 4) (sending : Bool) : State :=
  if sending then (s.updTp b fun t => { t with tx := none }).canGo b else s.updTp b fun t => { t with rx := none }

/-- A new PDU ends an open reception on its binding, as ISO 15765-2 has it (R361). -/
def State.endRx (s : State) : Via → State
  | .can b => s.updTp b fun t => { t with rx := none }
  | .eth _ _ => s

/-- First frame: opens reassembly, or is answered with OVFLW; either ends an open reception (R361). -/
def State.canFirst (s : State) (b : Fin 4) (data : Bytes) : State :=
  let n := ofBe (data.take 2) % 4096
  if n = 0 ∨ 1500 < n then (s.endRx (.can b)).canSend b [0x32#8, BitVec.ofNat 8 (s.bindBs b), BitVec.ofNat 8 (s.bindStmin b)]
  else if n ≤ data.length - 2 then s
  else
    (s.canSend b [0x30#8, BitVec.ofNat 8 (s.bindBs b), BitVec.ofNat 8 (s.bindStmin b)]).updTp b fun t =>
      { t with rx := some (data.drop 2), rxTotal := n, rxSn := 1, rxBlock := s.bindBs b }

/-- Consecutive frame: adds its bytes; the whole PDU once it is complete (R361). A wrong number ends the reception. -/
def State.canNextIn (s : State) (b : Fin 4) (data : Bytes) : Option Bytes × State :=
  let t := s.eoa.tp[b]
  match t.rx with
  | none => (none, s)
  | some got =>
    if byteAt data 0 % 16 ≠ t.rxSn % 16 then (none, s.updTp b fun t => { t with rx := none })
    else
      let all := got ++ data.drop 1
      if t.rxTotal ≤ all.length then (some (all.take t.rxTotal), s.updTp b fun t => { t with rx := none })
      else
        let s := s.updTp b fun t => { t with rx := some all, rxSn := t.rxSn + 1 }
        if t.rxBlock = 1 then
          (none, (s.canSend b [0x30#8, BitVec.ofNat 8 (s.bindBs b), BitVec.ofNat 8 (s.bindStmin b)]).updTp b fun t =>
            { t with rxBlock := s.bindBs b })
        else (none, s.updTp b fun t => { t with rxBlock := t.rxBlock - 1 })

/-! ## Frames that arrive (R359 to R361) -/

end Sys2Proof.Machine

namespace Sys2Proof

open Sys2Proof.Machine

/-- Fields of a frame's descriptor beat, and the frame (R359). -/
def EoaIn.kind (f : EoaIn) : Nat := byteAt f.raw 0
def EoaIn.port (f : EoaIn) : Nat := byteAt f.raw 1
def EoaIn.canId (f : EoaIn) : Nat := le f.raw 4 4
def EoaIn.frame (f : EoaIn) : Bytes := slice f.raw 32 (le f.raw 2 2)

/-- FLEN is the length of the frame that follows, and reserved bytes are zero (R14, R359). (DESIGN CHOICE, log entry 34.) -/
def EoaIn.beatOk (f : EoaIn) : Bool := f.raw.length == 32 + le f.raw 2 2 && allZero (slice f.raw 8 24)

/-- The VLAN tag of an Ethernet frame, under either tag's type, and its EtherType after any tag (R360, R362). -/
def EoaIn.tag (f : EoaIn) : Bytes := if [0x8100, 0x88A8].contains (ofBe (slice f.frame 12 2)) then slice f.frame 12 4 else []
def EoaIn.etherType (f : EoaIn) : Nat := ofBe (slice f.frame (12 + f.tag.length) 2)

end Sys2Proof

namespace Sys2Proof.Machine

/-- The binding that a CAN FD frame belongs to: its CHAN is the PORT, and its REQ_ID and IDE the CAN_ID (R361, R362). -/
def State.bindingOf (s : State) (f : EoaIn) : Option (Fin 4) :=
  if f.kind = 2 ∧ f.beatOk ∧ f.port ≤ 63 then
    (List.finRange 4).find? fun b => byteAt s.cfg.canBinds[b] 0 == f.port && s.canId b 4 == f.canId
  else none

/-- A frame is taken from channel 96: it crosses the offload port, where poison drops it (R447), and the exchange of tandem A (R451). -/
def State.takeFrame (s : State) (f : EoaIn) (use : State → State) : State :=
  if s.oflRxReady then
    let w := s.fifoWord 195
    if w.1 then w.2 else use (w.2.exchange 0 (.pdu f.raw))
  else s

/-- A CAN FD frame of kind k, the upper half of byte 0, is taken for its binding (R361). -/
def State.canFrame (s : State) (f : EoaIn) (k : Nat) (use : State → Fin 4 → Bytes → State) : State :=
  s.takeFrame f fun s =>
    match s.bindingOf f with
    | some b => if byteAt f.frame 0 / 16 = k then use s b f.frame else s
    | none => s

def execFirstFrame (f : EoaIn) (s : State) : Host.Outcome State Fault Refusal := .next (s.canFrame f 1 State.canFirst)

def execFlowControl (f : EoaIn) (s : State) : Host.Outcome State Fault Refusal := .next (s.canFrame f 3 State.canFlow)

def execNCrTimeout (b : Fin 4) (sending : Bool) (s : State) : Host.Outcome State Fault Refusal :=
  .next (if s.alive then (s.exchange 0 .tick).canTimeout b sending else s)

end Sys2Proof.Machine
end

