-- ==== Sys2Proof/Machine/Faults.lean ====
section
/-! DEFINITION. Units that fail: quarantine (R255), cluster fences (R18 to R20), the rebuild of TC reservations (R226),
the mismatch alarm (R256), and the tandems (R22 to R25, R452 to R454). -/

namespace Sys2Proof.Machine

/-! ## Leaving an engine -/

/-- A job leaves the engine it stands on: one whose run is over keeps its end, another goes on elsewhere (R19, R255). -/
def State.moveOff (s : State) (id : Nat) : State :=
  match s.job id with
  | none => s
  | some j =>
    match j.phase with
    | .draining | .keygen => s.leaveEngine j
    | _ => s.moveRun j

/-- A forwarded job goes back to the queue (R320). -/
def State.fwdBack (s : State) (f : FwdIn) : State :=
  (s.fwdLeave f).updCas fun c => { c with fwdIn := { f with engine := none } :: c.fwdIn }

/-- The frame on a lane goes back to the head of the queue. -/
def State.laneBack (s : State) (l : Fin 8) : State :=
  match s.edge.lanes[l] with
  | some j => (s.clearLane l).requeue j
  | none => s

/-- Everything leaves engine e, which serves no more. -/
def State.clearEngine (s : State) (e : Fin 36) : State :=
  let s := s.each s.units.eng[e].contexts fun s id => s.moveOff id
  let s := s.each (s.cas.fwdRun.filter fun f => f.engine == some e.val) fun s f => s.fwdBack f
  let s := s.each (allInst.filter fun n => (s.inst n).df.engine == some e.val) fun s n => s.dfMove n (e.val :: (s.inst n).df.failedOn)
  if h : 28 ≤ e.val then s.laneBack ⟨e.val - 28, by omega⟩ else s

/-- A unit that a TC reservation owned has gone: a rebuild is due (R226, R255). -/
def State.dueRebuild (s : State) (owned : Bool) : State := if owned then s.updUnits fun u => { u with rebuild := true } else s

/-! ## Quarantine (R255, R277) -/

/-- Kind code of the event (R394). -/
def kindCode : EngineKind → Nat
  | .ce => 1
  | .de => 2
  | .lf => 3
  | .el => 4

/-- The fault of a unit reaches the tandem that recovers its region, or the one that has taken that over (R22): two clusters to a region,
and the edge lanes with region 0. (DEDUCED, log entry 45.) -/
def State.toRecover (s : State) (cluster : Nat) : State := s.exchange (if cluster / 2 = 1 then 1 else 0) .interrupt

/-- DEDUCED, log entry 37. -/
def State.quarantine (s : State) (e : Fin 36) : State :=
  let k := engKind e
  let owned := s.units.eng[e].owner.isSome
  let s := ((s.toRecover (engCluster e)).updEng e fun g => { g with quar := true }).cause 6
  let s := if engCluster e < 4 then s.count (0x202C + engCluster e) 1 else s
  let s := s.logEvent 0x0020 0xFF [BitVec.ofNat 8 (kindCode k.1), BitVec.ofNat 8 k.2]
  (((s.dueRebuild owned).clearEngine e).serveEdge).serveWaiting

/-- ENGINE_QUARANTINED: due at a unit's second strike since the last die reset. -/
def execEngineQuarantined (k : EngineKind) (e : Fin 16) (s : State) : Host.Outcome State Fault Refusal :=
  match engNo k e.val with
  | some x => if s.alive ∧ 2 ≤ s.units.eng[x].strikes ∧ !s.units.eng[x].quar then .next (s.quarantine x) else .next s
  | none => .next s

/-! ## Cluster fences (R18 to R20) -/

/-- Quarantined units of a cluster. -/
def State.quarantined (s : State) (c : Fin 4) : Nat :=
  ((List.finRange 36).filter fun e => engCluster e == c.val && s.units.eng[e].quar).length

/-- A job of a fenced cluster's sequencer goes to another of BULK, or waits for one (R19, R235); a TC job waits for the rebuild. (DEDUCED, log entry 37.) -/
def State.moveSeqr (s : State) (id : Nat) : State :=
  match s.job id with
  | none => s
  | some j => if j.tc then s else s.placeSeqr id

/-- Jobs whose sequencer lies in cluster c. -/
def State.seqrJobs (s : State) (c : Fin 4) : List Nat :=
  (s.jobs.filter fun j => match j.seqr with
    | some q => q.val / 4 == c.val
    | none => false).map (·.id)

/-- A TC reservation holds a unit of cluster c. -/
def State.tcOnCluster (s : State) (c : Fin 4) : Bool :=
  ((List.finRange 16).any fun q => q.val / 4 == c.val && s.units.cs[q].owner.isSome)
    || (List.finRange 36).any fun e => engCluster e == c.val && s.units.eng[e].owner.isSome

/-- Clusters fenced since the die reset. -/
def Units.fences (u : Units) : Nat := (u.fenced.toList.filter id).length

/-- The fence of cluster c, for cause 1 to 3 of R18; a second one since the die reset is a KEYS alarm (R456). -/
def State.fenceCluster (s : State) (c : Fin 4) (cause : Nat) : State :=
  let owned := s.tcOnCluster c
  let s := ((s.toRecover c.val).updUnits fun u => { u with fenced := u.fenced.set c true }).cause 7
  let s := (s.count (0x202C + c.val) 2).logEvent 0x0021 0xFF [BitVec.ofNat 8 c.val, BitVec.ofNat 8 cause]
  let s := s.dueRebuild owned
  let s := s.each (s.seqrJobs c) fun s id => s.moveSeqr id
  let s := s.each ((List.finRange 36).filter fun e => engCluster e == c.val) fun s e => s.clearEngine e
  let s := s.serveEdge.serveWaiting
  if 2 ≤ s.units.fences then s.keysAlarm 5 else s

/-- CLUSTER_FENCED: cause 0 a shared uncorrectable error, 1 a third quarantined unit, 2 a supply fault (R18). -/
def execClusterFenced (c : Fin 4) (cause : Fin 3) (s : State) : Host.Outcome State Fault Refusal :=
  if s.alive ∧ !s.units.fenced[c] ∧ (cause ≠ 1 ∨ 3 ≤ s.quarantined c) then .next (s.fenceCluster c (cause.val + 1))
  else .next s

/-! ## TC_REBUILD (R20, R226) -/

/-- Assign up to m units of kind k to n, as many as there are. -/
def assignSome (n : Fin 128) (k : Nat) : Nat → Units → Units
  | 0, x => x
  | m + 1, x =>
    match x.pick k with
    | some u => assignSome n k m (x.setOwner k u (some n))
    | none => x

/-- Units that no longer serve leave n's reservation. -/
def State.dropDead (s : State) (n : Fin 128) : Units :=
  { s.units with
    cs := s.units.cs.mapFinIdx fun i c h => if c.owner = some n ∧ s.clusterFenced (i / 4) then ⟨none, 0⟩ else c
    eng := s.units.eng.mapFinIdx fun i e h =>
      if e.owner = some n ∧ (e.quar ∨ s.clusterFenced (engCluster ⟨i, h⟩)) then { e with owner := none } else e }

/-- A reservation that cannot be made whole: TC_DEGRADED, and a notice to its instance (R20, R139). (DEDUCED, log entry 37.) -/
def State.degrade (s : State) (n : Fin 128) : State :=
  let s := s.updUnits fun u => { u with degraded := n :: u.degraded.filter (· != n) }
  ((s.cause 14).logEvent 0x0025 n.val []).notice n 4 0

/-- Rebuild the reservation of n, in the order of kinds; the rest of R20 follows from what it then holds. -/
def State.rebuildFor (s : State) (n : Fin 128) : State :=
  let r := (s.inst n).live.tcReserve
  let s := { s with units := s.dropDead n }
  let u := [0, 1, 2, 3].foldl (fun x k => assignSome n k (byteAt r k - s.unitsHeld n k) x) s.units
  let s := { s with units := u }
  if [0, 1, 2, 3].any fun k => s.unitsHeld n k < byteAt r k then s.degrade n else s

/-- A TC job whose sequencer has gone takes another of its reservation's that runs nothing else, or waits for one; where the reservation
has none left it ends with ENGINE_FAULT (R21, R226, R228). -/
def State.tcSeqr (s : State) (id : Nat) : State :=
  match s.job id with
  | none => s
  | some j =>
    if !j.tc || j.phase == .draining || j.seqr.any fun c => s.seqServes c (some j.inst) then s
    else if s.unitsHeld j.inst 0 = 0 then s.finish j .engineFault 0
    else s.placeSeqr id

/-- Every reservation that lost a unit is rebuilt, lowest instance first, all in one step. (DEDUCED, log entry 41.) -/
def State.rebuildAll (s : State) : State :=
  let due := allInst.filter fun n => (s.inst n).isTc && s.rebuilding n
  let s := s.each due fun s n => s.rebuildFor n
  let s := s.updUnits fun u => { u with rebuild := false }
  (s.each (s.jobs.map (·.id)) fun s id => s.tcSeqr id).serveWaiting

/-- The rebuild is control work: it is done where a tandem runs (R22, R26). -/
def execTcRebuild (s : State) : Host.Outcome State Fault Refusal :=
  if s.alive && s.units.rebuild then .next s.rebuildAll else .next s

/-! ## MISMATCH_ALARM (R256) -/

/-- Failed comparisons that count toward the alarm, from time t to 10 ms later: a cipher or digest engine or a lane once (R256, R287),
each run of a lattice-and-field engine (R302). (DEDUCED, log entry 37.) -/
def Units.missed (u : Units) (t : Nat) : List Nat :=
  let l := (u.misses.filter fun m => t ≤ m.2 && m.2 ≤ t + 10 ^ 7).map (·.1)
  let lf (e : Nat) : Bool := 24 ≤ e && e < 28
  (l.filter fun e => !lf e).eraseDups ++ l.filter lf

/-- Comparisons have failed on three distinct engines within 10 ms, since the last alarm. -/
def Units.alarmDue (u : Units) : Bool := u.misses.any fun m => 3 ≤ (u.missed m.2).length

def execMismatchAlarm (s : State) : Host.Outcome State Fault Refusal :=
  if s.alive ∧ s.units.alarmDue then .next ((s.updUnits fun u => { u with misses := [] }).keysAlarm 9) else .next s

/-! ## Tandems -/

/-- Hops eastwards to member m. -/
def State.hopsEast (s : State) (m : Fin 4) : Nat := (m.val + 4 - s.cas.member.val) % 4

/-- The side a frame for m leaves by: fewer hops, east on a tie, the other side when a link is down (R482). Side 0 is
east. None where both are down. -/
def State.sideFor (s : State) (m : Fin 4) : Option (Fin 2) :=
  let east := s.hopsEast m ≤ 4 - s.hopsEast m
  let first : Fin 2 := if east then 0 else 1
  let other : Fin 2 := if east then 1 else 0
  if s.cas.trained[first] then some first else if s.cas.trained[other] then some other else none

/-- A frame enters the buffer of 64 of the hop it leaves by, or waits (R482). (DEDUCED, log entry 33.) -/
def State.hopPut (s : State) (d : Option (Fin 2)) (f : CasOut) : State :=
  match d with
  | some d =>
    if s.cas.out[d].length < 64 then
      (s.updCas fun c => { c with out := c.out.set d (c.out[d] ++ [f]) }).count (0x2024 + d.val) 1
    else s.updCas fun c => { c with held := c.held ++ [f] }
  | none => s.updCas fun c => { c with held := c.held ++ [f] }

/-- A released frame leaves by its side (R482). (DEDUCED, log entry 33.) -/
def State.sendHop (s : State) (f : CasOut) : State := s.hopPut (s.sideFor f.dst) f

/-- Release the cascade frames that wait in the output buffer (R452). (DEDUCED, log entry 33.) -/
def State.releaseCas (s : State) : State :=
  let l := s.cas.held
  (s.updCas fun c => { c with held := [] }).each l fun s f => s.sendHop f

/-- Tandem t does tandem u's work: its own, or that of a retired one (R22, R24). -/
def State.doesWork (s : State) (t u : Fin 2) : Bool :=
  s.flt.tandems[t].inService && (t == u || !s.flt.tandems[u].inService)

/-- The journal's group in flight is sent to the device; an append's first transfer is (R452). -/
def State.releaseJnl (s : State) : State := s.updJnl fun j => { j with sent := true }
def State.releaseCard (s : State) : State := s.updCard fun d => { d with append := d.append.map fun a => { a with sent := true } }

/-- A checkpoint of tandem t: its input log is emptied, and its outputs leave (R452). Tandem A runs EOA and the journal, tandem B the
card slots and the cascade (R22). (DEDUCED, log entry 45.) -/
def State.checkpoint (s : State) (t : Fin 2) : State :=
  let s := (s.updFlt fun f => { f with tandems := f.tandems.set t { f.tandems[t] with sinceCkpt := false, log := [] } }).count
    (0x2028 + t.val) 1
  let s := if s.doesWork t 0 then s.releaseEoa.releaseJnl else s
  if s.doesWork t 1 then s.releaseCas.releaseCard else s

def execTandemCheckpoint (t : Fin 2) (s : State) : Host.Outcome State Fault Refusal :=
  if s.tandemsRun ∧ s.flt.tandems[t].inService then .next (s.checkpoint t) else .next s

/-- Tandem t leaves service. The other takes its work from the last checkpoint, with the inputs logged since (R25, R451). (DEDUCED, log entry 45.) -/
def Flt.handOver (f : Flt) (t : Fin 2) : Flt :=
  let l := f.tandems[t].log
  let f := { f with tandems := f.tandems.set t { f.tandems[t] with inService := false, log := [] } }
  { f with tandems := f.tandems.set (1 - t) { f.tandems[1 - t] with log := f.tandems[1 - t].log ++ l } }

/-- A tandem is retired (R23): the other does its work; with both gone no control service runs (R26; DEDUCED, log entry 16). -/
def State.retireTandem (s : State) (t : Fin 2) (cause : Nat) : State :=
  let s := s.updFlt fun f => f.handOver t
  let s := s.logLive 0x0023 [BitVec.ofNat 8 t.val, BitVec.ofNat 8 cause]
  if s.flt.tandems[0].inService || s.flt.tandems[1].inService then s.cause 9
  else (s.updPwr fun p => { p with boot := .dead }).standStill

/-- A copy mismatch in tandem t (R453). What its output buffer held is made again by the replay, so nothing else changes;
a second one before a checkpoint retires it. (DEDUCED, log entry 37.) -/
def State.mismatch (s : State) (t : Fin 2) : State :=
  if s.flt.tandems[t].sinceCkpt then s.retireTandem t 2
  else
    let s := s.updFlt fun f =>
      { f with tandems := f.tandems.set t { f.tandems[t] with restarts := f.tandems[t].restarts ++ [s.now], sinceCkpt := true } }
    ((s.count (0x2028 + t.val) 2).logEvent 0x0022 0xFF [BitVec.ofNat 8 t.val]).cause 8

/-- DEDUCED, log entry 21. -/
def execTandemRestart (t : Fin 2) (s : State) : Host.Outcome State Fault Refusal :=
  if s.alive ∧ s.flt.tandems[t].inService then .next (s.mismatch t) else .next s

/-- Restarts of tandem t within a span of RESTART_WINDOW reach TANDEM_RESTARTS (R454). (DEDUCED, log entry 37.) -/
def State.restartsReach (s : State) (t : Fin 2) : Bool :=
  let l := s.flt.tandems[t].restarts
  l.any fun x => s.cfg.tandemRestarts ≤ (l.filter fun y => x ≤ y && y ≤ x + s.cfg.restartWindow * 10 ^ 6).length

def execTandemRetired (t : Fin 2) (s : State) : Host.Outcome State Fault Refusal :=
  if s.alive ∧ s.flt.tandems[t].inService ∧ s.restartsReach t then .next (s.retireTandem t 2) else .next s

end Sys2Proof.Machine
end

