-- ==== Sys2Proof/Machine/Time.lean ====
section
/-! DEFINITION. The time base and TC windows: TB_CYCLE, TIME_LOST and WINDOW_POLL (R77, R78, R229 to R231). -/

namespace Sys2Proof.Machine

/-- The pulse is an accepted cycle start (R231). -/
def State.cycleAccepted (s : State) : Bool :=
  match s.disp.lastCycle with
  | some t => decide (t + s.cfg.tcCycleMin ≤ s.now)
  | none => true

/-- An accepted cycle start (R231): the windows follow it where TB_VALID is high; while it is low they go on counting from the one they
followed, and follow one only where there was none before (R78, R229). (DEDUCED, log entry 28.) -/
def State.cycleStart (s : State) : State :=
  s.updDisp fun d =>
    let seen := match d.lastCycle with
      | some t => s.now - t
      | none => d.seen
    let follow := s.pins.tbValid || d.winBase.isNone
    { d with seen := seen, lastCycle := some s.now, aligned := d.aligned || s.pins.tbValid
             winBase := if follow then some s.now else d.winBase, winCycle := if follow then seen else d.winCycle }

/-- TB_CYCLE: accepted, or ignored and counted. -/
def execTbCycle (s : State) : Host.Outcome State Fault Refusal :=
  if s.alive then .next (if s.cycleAccepted then s.cycleStart else s.count 0x201F 1) else .next s

/-- TB_VALID has fallen, or TB_TIME has stepped backward by more than 1 µs (R78). (DESIGN CHOICE, log entry 3; DEDUCED, log entry 28.) -/
def State.timeLost (s : State) (valid : Bool) (t : Nat) : Bool :=
  s.pins.tbValid && (!valid || decide (t + 1000 < s.pins.tbTime))

/-- TIME_LOST: TB_VALID and TB_TIME take these values; the loss is logged and the windows run on the ECLK count. -/
def execTimeLost (valid : Bool) (tbTime : Nat) (s : State) : Host.Outcome State Fault Refusal :=
  let lost := s.timeLost valid tbTime
  let s := s.updPins fun p => { p with tbValid := valid, tbTime := tbTime }
  if lost ∧ s.alive then
    .next (s.logTimeLost.updDisp fun d => { d with aligned := false })
  else .next s

/-- The instant of window w has come (R231): WIN_OFFSET after the start of the cycle, once a cycle. (DEDUCED, log entry 28.) -/
def State.windowDue (s : State) (w : Fin 64) : Bool :=
  let x := s.cfg.windows[w]
  match s.winStart with
  | some t => x.on && x.polled != some t && decide (t + x.offset ≤ s.now)
  | none => false

/-- Window w polls its SQ where the conditions of R169 hold; while a read of the SQ is in flight the poll follows it (R231, R233).
(DEDUCED, log entry 41.) -/
def State.pollWindow (s : State) (w : Fin 64) : State :=
  let x := s.cfg.windows[w]
  let s := s.updCfg fun c => { c with windows := c.windows.set w { x with polled := s.winStart } }
  if h : x.sq < 512 then
    if (s.sq ⟨x.sq, h⟩).reading.isSome then s.updSq ⟨x.sq, h⟩ fun q => { q with again := true } else s.pollDue ⟨x.sq, h⟩
  else s

/-- The windows that go out with window w: those due at the same instant, in window order up to it (R231). -/
def State.windowsTo (s : State) (w : Fin 64) : List (Fin 64) :=
  (List.finRange 64).filter fun v => v ≤ w && s.cfg.windows[v].offset == s.cfg.windows[w].offset && s.windowDue v

/-- WINDOW_POLL: the instant of an enabled window (R231). -/
def execWindowPoll (w : Fin 64) (s : State) : Host.Outcome State Fault Refusal :=
  .next (if s.windowDue w then s.each (s.windowsTo w) State.pollWindow else s)

end Sys2Proof.Machine
end

