-- ==== Sys2Proof/Machine/Identity.lean ====
section
/-! DEFINITION. Who the block is: the recovery identity and the fingerprint (R88), the enrolment key pair (R122), the EOA
identity (R362), its attestation (R89), and how double signatures verify. -/

namespace Sys2Proof.Machine

/-- The recovery identity's keys (R88). -/
def recoveryEcKey : Bytes := privOf 0x41 Config.recoveryEc
def recoveryEcPub : Bytes := publicOf 0x41 recoveryEcKey
def recoveryPqPub : Bytes := dsaPublic 0x49 Config.recoveryPq

/-- The block fingerprint (R88). -/
def fingerprint : Bytes := padTo 16 (digest 0x32 48 (recoveryEcPub ++ recoveryPqPub))

/-- IDENT (R3). -/
def identValue : Nat := 0x4B57640042010003

/-- Code of a life-cycle state (R90). -/
def Lc.code : Lc → Nat
  | .blank => 0x01
  | .provision => 0x03
  | .field => 0x07
  | .ret => 0x0F
  | .scrap => 0x1F

/-- The state of a code. -/
def Lc.ofCode : Nat → Option Lc
  | 0x01 => some .blank
  | 0x03 => some .provision
  | 0x07 => some .field
  | 0x0F => some .ret
  | 0x1F => some .scrap
  | _ => none

/-- The fuse field as start-up reads it: a value that is none of the five codes is treated as SCRAP (R90). -/
def Life.read (l : Life) : Life := { l with fuse := (Lc.ofCode l.fuses).getD .scrap }

/-- The fuse bits of a state are burned (R94 step 2). -/
def Life.burn (l : Life) (aim : Lc) : Life := { l with fuses := l.fuses ||| aim.code, fuse := aim }

/-- ENROL_PUB from its key bytes: X25519, then ML-KEM-768 (R116). -/
def enrolPubOf (k : Bytes) : Bytes := publicOf 0x5A (slice k 0 32) ++ publicOf 0x51 (slice k 32 64)

/-- The enrolment keys, where DUS is usable (R122, R97). -/
def State.enrolKey (s : State) : Option Bytes := (s.rootKey 0).map fun r => padTo 96 (Config.enrolKeys r)

/-- ENROL_PUB; empty where no DUS is usable. (DEDUCED, log entry 34.) -/
def State.enrolPub (s : State) : Bytes := (s.enrolKey.map enrolPubOf).getD []

/-- The EOA identity's keys (R362, R97). -/
def State.eoaKey (s : State) : Option Bytes :=
  (s.rootKey 0).map fun r =>
    let k := padTo 80 (Config.eoaKeys r)
    privOf 0x41 (slice k 0 48) ++ slice k 48 32

/-- EOA_ID_PUB: P-384, then ML-DSA-65; empty where no DUS is usable. (DEDUCED, log entry 34.) -/
def State.eoaPub (s : State) : Bytes :=
  (s.eoaKey.map fun k => publicOf 0x41 (slice k 0 48) ++ dsaPublic 0x49 (slice k 48 32)).getD []

/-- An ECDSA P-384 signature, r then s, over a message's SHA-384. -/
def ecSigOk (pub msg sig : Bytes) : Bool := (verifyEc ⟨0x0401, 0x41, 0x32, msg, sig, [], pub⟩).status == .ok

/-- Both signatures verify; `pq` is the ML-DSA ALG. -/
def sigsOk (ecPub : Bytes) (pq : Nat) (pqPub msg sigEc sigPq : Bytes) : Bool :=
  ecSigOk ecPub msg sigEc && dsaVerify pq pqPub (dsaMessage none [] msg) sigPq

/-- Both signatures under a 2,049-byte pair of public keys, P-384 then ML-DSA-65 (R116, R362). (DEDUCED, log entry 17.) -/
def pairSigsOk (pub msg sigEc sigPq : Bytes) : Bool := sigsOk (slice pub 0 97) 0x49 (slice pub 97 1952) msg sigEc sigPq

/-- LC_AUTH holds a Kwaxiva token for this target code: both signatures verify over the four things it names (R92). -/
def State.tokenOk (s : State) (target : Nat) (debug : Bool) : Bool :=
  sigsOk Config.tokenEc 0x4A Config.tokenPq (Config.tokenMessage fingerprint target s.life.challenge debug)
    (Config.tokenSigEc s.life.auth) (Config.tokenSigPq s.life.auth)

/-- LC_AUTH holds an owner authorisation for this target code under the active owner anchor (R92). -/
def State.ownerOk (s : State) (target : Nat) : Bool :=
  match s.vault.anchor with
  | some a =>
    pairSigsOk a (Config.tokenMessage fingerprint target s.life.challenge false) (Config.ownerSigEc s.life.auth) (Config.ownerSigPq s.life.auth)
  | none => false

/-- The block signs a message with an ECDSA P-384 and an ML-DSA-65 key: both signatures, one after the other, each with its
blinding (R309). (DEDUCED, log entry 17.) -/
def State.signPair (s : State) (ec pq msg : Bytes) : Bytes × State :=
  let b := s.drawBytes false (blindLen 0x41 ec.length)
  let x := b.2.signWith false 0x41 0x32 ec [] msg b.1
  let c := x.2.drawBytes false (blindLen 0x49 pq.length)
  let y := c.2.signWith false 0x49 0 pq [] msg c.1
  (x.1.bytes ++ y.1.bytes, y.2)

/-- What an attestation signs (R89; DEDUCED, log entry 17 for the layout). -/
def State.attestBody (s : State) (challenge : Bytes) : Bytes :=
  challenge ++ toLe 8 identValue ++ toLe 1 s.life.fuse.code ++ fingerprint ++ digest 0x31 32 s.enrolPub
    ++ toLe 8 s.vault.bootEpoch ++ toLe 1 (flag s.life.vaultLost)

/-- A recovery attestation over a challenge: what it signs, then both signatures (R89). (DEDUCED, log entry 17.) -/
def State.attested (s : State) (challenge : Bytes) : Bytes × State :=
  let m := s.attestBody challenge
  let r := s.signPair recoveryEcKey Config.recoveryPq m
  (m ++ r.1, r.2)

/-- RECOVERY_ATTEST holds the attestation over a challenge written to it (R89, R116). (DEDUCED, log entry 17.) -/
def State.attest (s : State) (challenge : Bytes) : State :=
  let r := s.attested challenge
  r.2.updLife fun l => { l with attest := r.1 }

/-- Time in seconds from TB_TIME (R77). -/
def State.tbSeconds (s : State) : Nat := s.pins.tbTime / 10 ^ 9

/-- TB_TIME as 10 bytes: nanoseconds, then seconds; zero where it was not valid. -/
def timeBytes (ok : Bool) (t : Nat) : Bytes := if ok then toLe 4 (t % 10 ^ 9) ++ toLe 6 (t / 10 ^ 9) else zeros 10

end Sys2Proof.Machine
end

