-- ==== Sys2Proof/Machine/Values.lean ====
section
/-! DEFINITION. What each object of the dictionary reads (R342, and the tables of 13_catalogue.md and the chapters it
names), and the values that the journal keeps (R344). -/

namespace Sys2Proof.Machine

/-! ## Codes -/

/-- Codes of instance states (R130). -/
def IState.code : IState → Nat
  | .free => 0
  | .configured => 1
  | .active => 2
  | .quiescing => 3
  | .resetting => 4
  | .failed => 5

/-- CLASS of R374. -/
def TmpClass.code : TmpClass → Nat
  | .disabled => 0
  | .alarmOnly => 1
  | .tamper => 2

def TmpClass.ofCode : Nat → TmpClass
  | 0 => .disabled
  | 1 => .alarmOnly
  | _ => .tamper

/-- S0_STATE (R377). -/
def S0St.code : S0St → Nat
  | .off => 0
  | .init => 1
  | .ready => 2
  | .sleep => 3
  | .failed => 4

/-- S1_STATE (R377). -/
def S1St.code : S1St → Nat
  | .empty => 0
  | .debounce => 1
  | .init => 2
  | .ready => 3
  | .powerOff => 4
  | .failed => 5
  | .disabled => 6

/-- JNL_STATE (R379). -/
def JSt.code : JSt → Nat
  | .none => 0
  | .recovering => 1
  | .ready => 2
  | .compacting => 3
  | .budgetHeld => 4
  | .failed => 5

/-- UPD_STATE (R380). -/
def UpdSt.code : UpdSt → Nat
  | .idle => 0
  | .receiving => 1
  | .staged => 2
  | .failed => 3

def UpdSt.ofCode : Nat → UpdSt
  | 0 => .idle
  | 1 => .receiving
  | 2 => .staged
  | _ => .failed

/-- State of an image (R395). -/
def ImgSt.code : ImgSt → Nat
  | .empty => 0
  | .valid => 1
  | .rejected => 2

/-- PEL_ROLE (R384). -/
def Role.code : Role → Nat
  | .solo => 0
  | .lead => 1
  | .follower => 2
  | .cutOff => 3

/-! ## Parts of values -/

/-- A BOOL. -/
def boolBytes (b : Bool) : Bytes := toLe 1 (flag b)

/-- An owner byte: the instance, or 0xFF for none. -/
def ownerByte (o : Option (Fin 128)) : Nat :=
  match o with
  | some n => n.val
  | none => 0xFF

/-- A staged descriptor value (R129). -/
def Desc.field (d : Desc) : DescField → Bytes
  | .credits => toLe 2 d.credits
  | .weight => toLe 1 d.weight
  | .sqCount => toLe 1 d.sqCount
  | .cqCount => toLe 1 d.cqCount
  | .slotBase => toLe 2 d.slotBase
  | .slotQuota => toLe 2 d.slotQuota
  | .edgeQuota => toLe 2 d.edgeQuota
  | .colours => d.colours
  | .tclass => toLe 1 d.tclass
  | .tcReserve => d.tcReserve
  | .consumers => toLe 2 d.consumers

/-- Stage a descriptor value. -/
def Desc.setField (d : Desc) (f : DescField) (b : Bytes) : Desc :=
  match f with
  | .credits => { d with credits := ofLe b }
  | .weight => { d with weight := ofLe b }
  | .sqCount => { d with sqCount := ofLe b }
  | .cqCount => { d with cqCount := ofLe b }
  | .slotBase => { d with slotBase := ofLe b }
  | .slotQuota => { d with slotQuota := ofLe b }
  | .edgeQuota => { d with edgeQuota := ofLe b }
  | .colours => { d with colours := b }
  | .tclass => { d with tclass := ofLe b }
  | .tcReserve => { d with tcReserve := b }
  | .consumers => { d with consumers := ofLe b }

/-- The 4-byte check value of a root; zero where absent (R116). While debug is enabled it is TEST's (R97). (DEDUCED, log entry 26.) -/
def State.kcv (s : State) (r : Option Bytes) : Bytes :=
  match r with
  | some k => (cmac (if s.life.debug then testRoot else k) (zeros 16)).take 4
  | none => zeros 4

/-- Bit i + 1 for each root present, from VRT (R116). -/
def rootBits (l : List (Option Bytes)) : Nat := (l.zipIdx.map fun p => if p.1.isSome then 2 ^ (p.2 + 1) else 0).sum

/-- An event record (R393). -/
def Event.bytes (e : Event) : Bytes :=
  toLe 4 e.seq ++ toLe 2 e.code ++ toLe 1 e.severity ++ toLe 1 e.inst ++ timeBytes e.timeOk e.time ++ toLe 4 e.epoch
    ++ zeros 2 ++ padTo 8 e.detail

/-- Bytes of the journal area (R399). -/
def Jnl.capacity (j : Jnl) : Nat := if j.s0State = .ready then min (2 ^ 30) (j.s0Cap - 2 ^ 23) else 0

/-- Pages of the journal area (R418). (DEDUCED, log entry 29.) -/
def Jnl.pages (j : Jnl) : Nat := j.capacity / 4096

/-- Pages from the newest snapshot's first through the newest (R424). -/
def Jnl.live (j : Jnl) : Nat := if j.groups = [] then 0 else j.pseq + 1 - j.snapPseq

/-- JNL_FILL: their share, in percent. -/
def Jnl.fill (j : Jnl) : Nat := if j.pages = 0 then 0 else min 100 (j.live * 100 / j.pages)

/-- Segment count of the held transfer (R380). -/
def Jnl.segCount (j : Jnl) : Nat := if j.updSeg = 0 then 0 else ceilDiv j.updLen j.updSeg

/-- UPD_BITMAP (R380). -/
def Jnl.bitmap (j : Jnl) : Bytes :=
  (List.range 128).map fun i => BitVec.ofNat 8 ((List.range 8).map fun k => if j.updMap.contains (8 * i + k) then 2 ^ k else 0).sum

/-- The image that runs. -/
def Jnl.runBytes (j : Jnl) : Bytes := (j.images.toList.getD j.runImage ⟨[], 0, 0, .empty⟩).bytes

/-- IMAGE_A and IMAGE_B (R395). -/
def Image.record (i : Image) : Bytes := toLe 4 i.version ++ toLe 4 i.svn ++ toLe 1 i.state.code ++ zeros 7

/-- One slot of ANCHOR_STATUS. An anchor whose ROLES are 0 has been removed; its SEQ stays (R363). -/
def Anchor.status : Option Anchor → Bytes
  | some a => toLe 1 (flag (a.roles != 0)) ++ toLe 1 a.roles ++ zeros 6 ++ toLe 8 a.seq
  | none => zeros 16

/-- SESSION_INFO (R362). -/
def State.sessionInfo (s : State) (k : Fin 8) : Bytes :=
  match s.eoa.sessions[k] with
  | none => zeros 40
  | some x =>
    toLe 4 x.number ++ toLe 1 (if x.opened then 2 else 1) ++ toLe 1 (if x.opened then x.roles else 0)
      ++ toLe 1 (match x.via with
        | .eth _ _ => 1
        | .can _ => 2) ++ toLe 1 x.port ++ padTo 16 x.subject ++ toLe 8 x.lastSeq
      ++ toLe 4 ((s.now - x.lastTime) / 10 ^ 9) ++ toLe 4 x.drops

/-- EDGE_ENTRY (R272). -/
def State.entryRecord (s : State) (k : Nat) : Bytes :=
  match s.edge.table.lookup k with
  | none => 0xFF#8 :: zeros 31
  | some x =>
    toLe 1 x.owner.val ++ toLe 1 x.chan ++ toLe 2 x.dataId ++ toLe 1 x.mode ++ toLe 1 x.macBits ++ toLe 1 x.txBits
      ++ toLe 1 x.fvLen ++ toLe 8 x.fvLast ++ toLe 4 x.accepts ++ toLe 4 x.macFails ++ toLe 4 x.freshFails ++ zeros 4

/-- TC_UNITS (R229). -/
def State.tcUnits (s : State) : Bytes :=
  (s.units.cs.toList.map fun c => BitVec.ofNat 8 (ownerByte c.owner))
    ++ ((s.units.eng.toList.take 28).map fun e => BitVec.ofNat 8 (ownerByte e.owner))

/-- LANE_QUAR (R272). -/
def State.laneQuar (s : State) : Nat :=
  ((List.finRange 36).map fun e => if 28 ≤ e.val ∧ s.units.eng[e].quar then 2 ^ (e.val - 28) else 0).sum

/-- The index at which FIFO occupancies are counters (R390). (DESIGN CHOICE, log entry 4.) -/
def isFifo (i sub : Nat) : Bool := decide (0x2400 ≤ i ∧ i < 0x2580) && sub == 1

/-- A counter as the served bank holds it (R388); an occupancy is a free value (DESIGN CHOICE, log entry 4). -/
def State.counter (s : State) (i sub : Nat) : Nat :=
  if s.cnt.seq = 0 then 0
  else if isFifo i sub then
    ofLe [Config.freeByte (s.cnt.fifo + 2 * (i - 0x2400)), Config.freeByte (s.cnt.fifo + 2 * (i - 0x2400) + 1)]
  else assoc (if s.cnt.bank then s.cnt.bank1 else s.cnt.bank0) (cntKey i sub)

/-- The state that the service's reads of counters see: for a batch, the bank that was served when a snapshot ended within it (R465). -/
def State.served (s : State) : State :=
  match s.dict.batch.bind (·.view) with
  | some c => { s with cnt := c }
  | none => s

/-- Sentry keys present, as bits 3:0 (R382). -/
def Vault.keyBits (v : Vault) : Nat := ((List.finRange 4).map fun k => if v.sentry[k].isSome then 2 ^ k.val else 0).sum

/-- Polls per second that SQ g commits: 10^9 / CADENCE of an enabled TC SQ (R230). (DESIGN CHOICE, log entry 51.) -/
def State.sqLoad (s : State) (g : Fin 512) : Rat :=
  match (s.sq g).owner with
  | some n => if (s.inst n).isTc && ((s.sq g).state == SqSt.enabled || (s.sq g).state == SqSt.deferred)
    then 10 ^ 9 / ((s.sq g).cadence : Rat) else 0
  | none => 0

/-- TC_POLL_LOAD (R229, R230), rounded down. -/
def State.pollLoad (s : State) : Nat :=
  let wins : Rat := ((s.cfg.windows.toList.filter fun w => w.on).length : Rat) * (10 ^ 9 / (s.cfg.tcCycleMin : Rat))
  ((allSq.map s.sqLoad).sum + wins).floor.toNat

/-! ## What each object reads -/

/-- Values at 0x1200+n. -/
def State.instValue (s : State) (n : Fin 128) : Obj → Bytes
  | .instState _ => toLe 1 (s.inst n).state.code
  | .instDesc _ f => (s.inst n).staged.field f
  | .instSqBase _ => toLe 2 ((s.inst n).sqBase.getD 0xFFFF)
  | .instCqBase _ => toLe 2 ((s.inst n).cqBase.getD 0xFFFF)
  | .logBase _ => toLe 8 (s.inst n).logBase.toNat
  | .logLow _ => toLe 8 (s.inst n).logLow.toNat
  | .logPages _ => toLe 4 (s.inst n).logPages
  | .logEnable _ => boolBytes (s.inst n).logEnable
  | .instHand _ => toLe 2 (s.inst n).hand
  | .instOutstanding _ => toLe 2 (s.inst n).outstanding
  | .instNotice _ => toLe 1 (s.inst n).noticeCode ++ zeros 7 ++ toLe 8 (s.inst n).noticeAddr
  | .pelAccept _ => toLe 1 (s.inst n).pelAccept
  | .pelResult _ => toLe 1 (s.inst n).pelResult
  | _ => []

/-- Values at 0x1300+g. ENABLE reads 1 from an accepted enable until the ring is next disabled (R159). -/
def State.sqValue (s : State) (g : Fin 512) : Obj → Bytes
  | .sqState _ => toLe 1 (s.sq g).state.code
  | .sqEnable _ => boolBytes ((s.sq g).state == .enabled || (s.sq g).state == .deferred || (s.sq g).state == .stopped)
  | .sqBaseAddr _ => toLe 8 (s.sq g).base
  | .sqSize _ => toLe 4 (s.sq g).size
  | .sqWbAddr _ => toLe 8 (s.sq g).wbAddr
  | .sqCq _ => toLe 1 (s.sq g).cq
  | .sqCadence _ => toLe 4 (s.sq g).cadence
  | .sqConsumed _ => toLe 4 (s.sq g).consumed.toNat
  | .sqOwner _ => toLe 1 (ownerByte (s.sq g).owner)
  | .sqStopCause _ => toLe 1 (s.sq g).stopCause
  | _ => []

/-- Values at 0x1500+q. -/
def State.cqValue (s : State) (q : Fin 256) : Obj → Bytes
  | .cqState _ => boolBytes (s.cq q).enabled
  | .cqEnable _ => boolBytes (s.cq q).enabled
  | .cqBaseAddr _ => toLe 8 (s.cq q).base
  | .cqSize _ => toLe 4 (s.cq q).size
  | .cqTail _ => toLe 4 (s.cq q).tail.toNat
  | .cqVector _ => toLe 1 (s.cq q).vector
  | .cqIrqMode _ => toLe 1 (s.cq q).irqMode
  | .cqIrqCount _ => toLe 2 (s.cq q).irqCount
  | .cqIrqDelay _ => toLe 4 (s.cq q).irqDelay
  | .cqOverflow _ => toLe 1 (s.cq q).overflow.length
  | .cqStalled _ => boolBytes (s.cq q).stalled
  | .cqOwner _ => toLe 1 (ownerByte (s.cq q).owner)
  | _ => []

/-- TMP_CFG. -/
def TmpCfg.bytes (c : TmpCfg) : Bytes := toLe 1 c.cls.code ++ boolBytes c.high

/-- Identity, life cycle, vault and measurement. -/
def State.keyValue (s : State) : Obj → Bytes
  | .ident => toLe 8 identValue
  | .fingerprint => fingerprint
  | .vendor => ascii "Kwaxiva Semiconductor"
  | .product => ascii "Jexen SJ6400"
  | .dieSerial => padTo 8 Config.dieSerial
  | .lcState => toLe 1 s.life.fuse.code
  | .debugEnable => boolBytes s.life.debug
  | .lcChallenge => s.life.challenge
  | .tmpCfg i => s.tamper.cfg[i].bytes
  | .tmpLatched => toLe 1 s.tamper.latched.toNat
  | .tmpLevel => toLe 1 s.pins.tmpLevel.toNat
  | .vcounter k => toLe 8 s.vault.counters[k].toNat
  | .bootEpoch => toLe 8 s.vault.bootEpoch
  | .journalAnchor => toLe 8 s.vault.journalAnchor
  | .cardCounter k => toLe 8 s.vault.cardCounters[k].toNat
  | .rootKcv => ((s.vault.roots.toList ++ s.vault.pendRoots.toList).map s.kcv).flatten
  | .ownerAnchor => s.vault.anchor.getD []
  | .enrolPub => s.enrolPub
  | .recoveryCert => Config.recoveryCert.take 32776
  | .recoveryAttest => s.life.attest
  | .rootStatus =>
    toLe 2 (flag s.vault.dus.isSome + rootBits s.vault.roots.toList) ++ toLe 2 (rootBits s.vault.pendRoots.toList) ++ zeros 4
      ++ (s.vault.seqs.toList.map (toLe 8)).flatten
  | .fwMeasure => s.life.fwMeasure
  | .fwSvn => toLe 4 s.life.fwSvn
  | .hostMeasure => s.life.hostMeasure.getD (zeros 48)
  | _ => []

/-- Time class, edge, cards, journal, update. -/
def State.unitValue (s : State) : Obj → Bytes
  | .tcCycleMin => toLe 4 s.cfg.tcCycleMin
  | .tcCycleSeen => toLe 4 s.disp.seen
  | .tcAligned => boolBytes s.disp.aligned
  | .tcPollLoad => toLe 4 s.pollLoad
  | .tcUnits => s.tcUnits
  | .winSq w => toLe 2 s.cfg.windows[w].sq
  | .winOffset w => toLe 4 s.cfg.windows[w].offset
  | .winEnable w => boolBytes s.cfg.windows[w].on
  | .edgeEnable => boolBytes s.cfg.edgeEnable
  | .chanOwner => s.cfg.chanOwner.toList.map fun o => BitVec.ofNat 8 (ownerByte o)
  | .laneQuar => toLe 1 s.laneQuar
  | .edgeEntry k => s.entryRecord k.val
  | .s0State => toLe 1 s.jnl.s0State.code
  | .s0Cid => s.jnl.s0Cid
  | .s0Capacity => toLe 8 s.jnl.s0Cap
  | .s1Enable => boolBytes s.cfg.s1Enable
  | .s1Modes => toLe 1 s.cfg.s1Modes.toNat
  | .s1State => toLe 1 s.card.state.code
  | .s1Mode => toLe 1 s.card.mode
  | .s1Cid => s.card.cid
  | .crcRetries => toLe 1 s.cfg.crcRetries
  | .recCounter => toLe 1 (s.cfg.recCounter.val + 1)
  | .recLast => s.card.recs[s.cfg.recCounter].last
  | .recStatus =>
    toLe 8 s.vault.cardCounters[s.cfg.recCounter].toNat ++ toLe 8 s.card.recs[s.cfg.recCounter].cardValue
      ++ toLe 1 s.card.recs[s.cfg.recCounter].check ++ zeros 7
  | .jnlState => toLe 1 s.jnl.state.code
  | .jnlFill => toLe 1 s.jnl.fill
  | .jnlCapacity => toLe 4 s.jnl.capacity
  | .jnlDayBytes => toLe 4 s.jnl.dayBytes
  | .jnlDayLimit => toLe 4 s.cfg.jnlDayLimit
  | .jnlTime => toLe 8 s.jnl.time
  | .updState => toLe 1 s.jnl.updState.code
  | .runImage => toLe 1 s.jnl.runImage
  | .svnFloor => toLe 4 s.cfg.svnFloor
  | .bootResult => toLe 1 s.jnl.bootResult
  | .updAtWake => boolBytes s.cfg.updAtWake
  | .updBegin => toLe 4 s.jnl.updLen ++ toLe 4 s.jnl.updSeg ++ toLe 4 s.jnl.updSvn ++ zeros 4 ++ padTo 32 s.jnl.updId
  | .updBitmap => s.jnl.bitmap
  | .updReceived => toLe 4 s.jnl.updMap.length
  | _ => []

/-- Power, peloton, faults, EOA, counters, log, firmware. -/
def State.infoValue (s : State) : Obj → Bytes
  | .pwrState => toLe 1 (flag (s.pwr.state == .coast))
  | .coastAfter => toLe 4 s.cfg.coastAfter
  | .freewheelAfter => toLe 4 s.cfg.freewheelAfter
  | .wakeEnable => boolBytes s.cfg.wakeEnable
  | .wakeCounter => toLe 1 s.cfg.wakeCounter
  | .backoffTime => toLe 2 s.cfg.backoffTime
  | .wakeStatus =>
    toLe 4 s.sentry.valid ++ toLe 4 s.sentry.invalid ++ toLe 4 s.sentry.backoffs ++ toLe 1 s.vault.keyBits
      ++ boolBytes s.sentry.backoff.isSome ++ zeros 2
  | .pelConfig => toLe 1 s.cfg.pelConfig
  | .pelMember => toLe 1 s.cfg.pelMember
  | .pelRole => toLe 1 s.cas.role.code
  | .pelStatus => s.cas.peers.toList.map fun p => BitVec.ofNat 8 p.status
  | .pelPeer m => s.cfg.pelPeers[m]
  | .fwdEnable => boolBytes s.cfg.fwdEnable
  | .fwdAccept => boolBytes s.cfg.fwdAccept
  | .fwdEngines => toLe 1 s.cfg.fwdEngines
  | .tandemRestarts => toLe 1 s.cfg.tandemRestarts
  | .restartWindow => toLe 4 s.cfg.restartWindow
  | .mgrIrqMask => toLe 4 s.cfg.mgrIrqMask.toNat
  | .eoaEnable => boolBytes s.cfg.eoaEnable
  | .eoaEtherType => toLe 2 s.cfg.eoaEtherType
  | .eoaMac => s.cfg.eoaMac
  | .sessionsMax => toLe 1 s.cfg.sessionsMax
  | .idleLimit => toLe 4 s.cfg.idleLimit
  | .blockCert => s.cfg.blockCert
  | .eoaIdPub => s.eoaPub
  | .anchorStatus => (s.cfg.anchors.toList.map Anchor.status).flatten
  | .helloDrops => toLe 4 s.eoa.helloDrops
  | .canBind b => s.cfg.canBinds[b]
  | .sessionInfo k => s.sessionInfo k
  | .snapSeq => toLe 8 s.served.cnt.seq
  | .snapTime => timeBytes s.served.cnt.timeOk s.served.cnt.time
  | .snapBank => boolBytes s.served.cnt.bank
  | .counter i sub => toLe 8 (s.served.counter i sub)
  | .evtLog => (s.jnl.events.map Event.bytes).flatten
  | .evtSeq => toLe 4 ((s.jnl.events.getLast?.map (·.seq)).getD 0)
  | .fwVersion => toLe 4 (le s.jnl.runBytes 8 4)
  | .imageA => s.jnl.images[0].record
  | .imageB => s.jnl.images[1].record
  | .romVersion => toLe 4 0x02010000
  | .sentryVersion => toLe 4 (le s.jnl.runBytes 20 4)
  | .microcodeVersion => toLe 4 (le s.jnl.runBytes 24 4)
  | _ => []

/-- The value of an object as it reads (R341 to R395). -/
def State.valueOf (s : State) (o : Obj) : Bytes :=
  match o with
  | .highest _ top => toLe 1 top
  | .instState n | .instDesc n _ | .instSqBase n | .instCqBase n | .logBase n | .logLow n | .logPages n | .logEnable n
  | .instHand n | .instOutstanding n | .instNotice n | .pelAccept n | .pelResult n => s.instValue n o
  | .sqState g | .sqEnable g | .sqBaseAddr g | .sqSize g | .sqWbAddr g | .sqCq g | .sqCadence g | .sqConsumed g
  | .sqOwner g | .sqStopCause g => s.sqValue g o
  | .cqState q | .cqEnable q | .cqBaseAddr q | .cqSize q | .cqTail q | .cqVector q | .cqIrqMode q | .cqIrqCount q
  | .cqIrqDelay q | .cqOverflow q | .cqStalled q | .cqOwner q => s.cqValue q o
  | _ => s.keyValue o ++ s.unitValue o ++ s.infoValue o

/-! ## Rights (R343) -/

/-- The instance that an INSTANCE object belongs to now. -/
def State.holder (s : State) : Obj → Option (Fin 128)
  | .sqState g | .sqEnable g | .sqBaseAddr g | .sqSize g | .sqWbAddr g | .sqCq g | .sqCadence g | .sqConsumed g
  | .sqOwner g | .sqStopCause g => (s.sq g).owner
  | .cqState q | .cqEnable q | .cqBaseAddr q | .cqSize q | .cqTail q | .cqVector q | .cqIrqMode q | .cqIrqCount q
  | .cqIrqDelay q | .cqOverflow q | .cqStalled q | .cqOwner q => (s.cq q).owner
  | .instState n | .instSqBase n | .instCqBase n | .instHand n | .instOutstanding n | .instNotice n | .selfReset n => some n
  | .edgeEntry k => (s.edge.table.lookup k.val).map (·.owner)
  | .counter i _ => if h : 0x2080 ≤ i ∧ i < 0x2100 then some ⟨i - 0x2080, by omega⟩ else none
  | _ => none

/-- Rights class of an object. -/
def State.rightsOf (s : State) (o : Obj) : Rights :=
  match o with
  | .highest _ _ | .ident | .fingerprint | .vendor | .product | .dieSerial | .lcState | .lcChallenge | .bootEpoch
  | .enrolPub | .recoveryCert | .fwMeasure | .fwSvn | .tcCycleSeen | .tcAligned | .runImage | .pwrState | .pelRole
  | .eoaIdPub | .anchorStatus | .snapSeq | .snapTime | .snapBank | .fwVersion | .romVersion | .sentryVersion
  | .microcodeVersion => .pub
  | .rootClear _ | .ownerAnchor | .anchorClear => .prov
  | .rootDelivery | .anchorPkg => .fleet
  | .edgeLoad | .edgeFree => .inst none
  | .counter i _ => if 0x2080 ≤ i ∧ i < 0x2100 then .inst (s.holder o) else .mgr
  | .instState _ | .instSqBase _ | .instCqBase _ | .instHand _ | .instOutstanding _ | .instNotice _ | .selfReset _
  | .sqState _ | .sqEnable _ | .sqBaseAddr _ | .sqSize _ | .sqWbAddr _ | .sqCq _ | .sqCadence _ | .sqConsumed _
  | .sqOwner _ | .sqStopCause _ | .cqState _ | .cqEnable _ | .cqBaseAddr _ | .cqSize _ | .cqTail _ | .cqVector _
  | .cqIrqMode _ | .cqIrqCount _ | .cqIrqDelay _ | .cqOverflow _ | .cqStalled _ | .cqOwner _ | .edgeEntry _ =>
    .inst (s.holder o)
  | _ => .mgr

/-- Roles of an open session (R362). -/
def State.roles (s : State) (k : Fin 8) : Nat := ((s.eoa.sessions[k]).map (·.roles)).getD 0

/-- The session holds the MANAGER role. -/
def State.isManager (s : State) (k : Fin 8) : Bool := bit (s.roles k) 1

/-- The session holds the FLEET role. -/
def State.isFleet (s : State) (k : Fin 8) : Bool := bit (s.roles k) 2

/-- R343: the requester's rights admit it. EDGE_LOAD and EDGE_FREE admit every instance, which the entry's own rules then
judge (R273). ANCHOR_RESTORE is written in FIELD only (R117). A fleet session may write LC_REQUEST, judged again by its
target. -/
def State.admits (s : State) (w : Who) (o : Obj) : Bool :=
  match s.rightsOf o, w with
  | .pub, _ => true
  | .inst _, .mgr => true
  | .inst owner, .inst n => owner == some n || o == .edgeLoad || o == .edgeFree
  | .inst _, .session k => s.isManager k
  | .mgr, .mgr => o != .anchorRestore || s.life.fuse == .field
  | .mgr, .inst _ => false
  | .mgr, .session k =>
    (s.isManager k && (o != .anchorRestore || s.life.fuse == .field)) || (o == .lcRequest && s.isFleet k)
  | .prov, .mgr => s.life.fuse == .provision
  | .prov, .inst _ => false
  | .prov, .session k => s.isManager k && s.life.fuse == .provision
  | .fleet, .mgr => true
  | .fleet, .inst _ => false
  | .fleet, .session k => s.isFleet k

/-! ## Values that the journal keeps -/

/-- Every object whose value a snapshot carries (R424), the EOA anchors as ANCHOR_CLEAR or ANCHOR_PKG apart. -/
def persistObjs : List Obj :=
  (List.finRange 8).map .tmpCfg ++ [.edgeEnable, .s1Enable, .s1Modes, .crcRetries, .jnlDayLimit, .svnFloor, .updAtWake,
    .updBegin, .updState, .coastAfter, .freewheelAfter, .wakeEnable, .wakeCounter, .backoffTime, .pelConfig, .pelMember]
    ++ (List.finRange 4).map .pelPeer ++ [.fwdEnable, .fwdAccept, .fwdEngines, .tandemRestarts, .restartWindow, .mgrIrqMask,
    .eoaEnable, .eoaEtherType, .eoaMac, .sessionsMax, .idleLimit, .blockCert] ++ (List.finRange 4).map .canBind
    ++ ([DescField.credits, .weight, .sqCount, .cqCount, .slotBase, .slotQuota, .edgeQuota, .colours, .tclass, .tcReserve,
      .consumers].map (.instDesc 0 ·))

/-- An anchor slot from 2 keys. -/
def anchorOf (roles seq : Nat) (keys : Bytes) : Anchor := ⟨roles, seq, slice keys 0 97, slice keys 97 1952⟩

/-- Set anchor slot k. -/
def Cfg.setAnchor (c : Cfg) (k : Nat) (a : Option Anchor) : Cfg :=
  if h : k < 8 then { c with anchors := c.anchors.set k a } else c

/-- Configuration after a PERSIST value of object o is applied, where the value lives in `Cfg`. -/
def Cfg.apply (c : Cfg) (o : Obj) (b : Bytes) : Cfg :=
  let v := ofLe b
  match o with
  | .edgeEnable => { c with edgeEnable := v != 0 }
  | .s1Enable => { c with s1Enable := v != 0 }
  | .s1Modes => { c with s1Modes := BitVec.ofNat 8 v }
  | .crcRetries => { c with crcRetries := v }
  | .jnlDayLimit => { c with jnlDayLimit := v }
  | .svnFloor => { c with svnFloor := v }
  | .updAtWake => { c with updAtWake := v != 0 }
  | .coastAfter => { c with coastAfter := v }
  | .freewheelAfter => { c with freewheelAfter := v }
  | .wakeEnable => { c with wakeEnable := v != 0 }
  | .wakeCounter => { c with wakeCounter := v }
  | .backoffTime => { c with backoffTime := v }
  | .pelConfig => { c with pelConfig := v }
  | .pelMember => { c with pelMember := v }
  | .pelPeer m => { c with pelPeers := c.pelPeers.set m b }
  | .fwdEnable => { c with fwdEnable := v != 0 }
  | .fwdAccept => { c with fwdAccept := v != 0 }
  | .fwdEngines => { c with fwdEngines := v }
  | .tandemRestarts => { c with tandemRestarts := v }
  | .restartWindow => { c with restartWindow := v }
  | .mgrIrqMask => { c with mgrIrqMask := BitVec.ofNat 32 v }
  | .eoaEnable => { c with eoaEnable := v != 0 }
  | .eoaEtherType => { c with eoaEtherType := v }
  | .eoaMac => { c with eoaMac := b }
  | .sessionsMax => { c with sessionsMax := v }
  | .idleLimit => { c with idleLimit := v }
  | .blockCert => { c with blockCert := b }
  | .canBind i => { c with canBinds := c.canBinds.set i b }
  | .anchorClear => c.setAnchor (byteAt b 0) (some (anchorOf (byteAt b 1) 0 (b.drop 8)))
  | .anchorPkg => c.setAnchor (byteAt b 2) (some (anchorOf (byteAt b 3) (le b 8 8) (if byteAt b 3 = 0 then zeros 2049 else b.drop 32)))
  | _ => c

/-- An UPD_BEGIN value names the transfer that is held (R381). -/
def Jnl.sameUpdate (j : Jnl) (b : Bytes) : Bool :=
  j.updState != .failed && j.updState != .idle && j.updLen == le b 0 4 && j.updSeg == le b 4 4 && j.updId == slice b 16 32

/-- The held transfer after an accepted UPD_BEGIN (R381): the same one resumes, any other starts anew. -/
def Jnl.begin (j : Jnl) (b : Bytes) : Jnl :=
  if j.sameUpdate b then j
  else { j with updState := .receiving, updLen := le b 0 4, updSeg := le b 4 4, updSvn := le b 8 4, updId := slice b 16 32
                updMap := [], updOpen := none }

/-- The held transfer given up, in state st (R380, R438). -/
def Jnl.dropUpdate (j : Jnl) (st : UpdSt) : Jnl :=
  { j with updState := st, updLen := 0, updSeg := 0, updSvn := 0, updId := zeros 32, updMap := [], updOpen := none }

/-- Segment n is stored; the last one gives STAGED (R381, R436). -/
def Jnl.segment (j : Jnl) (n : Nat) : Jnl :=
  let m := if j.updMap.contains n then j.updMap else n :: j.updMap
  { j with updMap := m, updState := if j.updState == .receiving && m.length == j.segCount then .staged else j.updState }

/-- The journal's value of IMAGE_A or IMAGE_B: the record of R395, with what the selection adds in its byte 9: bit 0 that the image is
ACTIVE, bit 1 TRIAL (R431). (DESIGN CHOICE, log entry 50.) -/
def Jnl.imageValue (j : Jnl) (k : Fin 2) : Bytes :=
  j.images[k].record.take 9 ++ toLe 1 (flag (j.active == k.val) + 2 * flag j.trial) ++ zeros 6

/-- Such a value taken from the journal. (DESIGN CHOICE, log entry 50.) -/
def Jnl.setImage (j : Jnl) (k : Fin 2) (b : Bytes) : Jnl :=
  let st : ImgSt := match byteAt b 8 with
    | 0 => .empty
    | 1 => .valid
    | _ => .rejected
  { j with images := j.images.set k { j.images[k] with version := le b 0 4, svn := le b 4 4, state := st }
           active := if bit (byteAt b 9) 0 then k.val else j.active, trial := bit (byteAt b 9) 1 }

/-- Apply one PERSIST value (R344). UPD_STATE carries only a return to IDLE or FAILED. -/
def State.applyValue (s : State) (o : Obj) (b : Bytes) : State :=
  match o with
  | .tmpCfg i => s.setTmpCfg i ⟨TmpClass.ofCode (byteAt b 0), byteAt b 1 != 0⟩
  | .instDesc n f => s.updInst n fun i => { i with staged := i.staged.setField f b }
  | .updBegin => s.updJnl fun j => j.begin b
  | .updState => if byteAt b 0 = 0 ∨ byteAt b 0 = 3 then s.updJnl fun j => j.dropUpdate (UpdSt.ofCode (byteAt b 0)) else s
  | .imageA => s.updJnl fun j => j.setImage 0 b
  | .imageB => s.updJnl fun j => j.setImage 1 b
  | _ => s.updCfg fun c => c.apply o b

end Sys2Proof.Machine
end

