-- ==== Sys2Proof/Machine/Journal.lean ====
section
/-! DEFINITION. The journal (R418 to R429): groups and their sizes, the write budget (R425, R426), when a PERSIST write is
refused (R427), how a group becomes durable (R422), snapshots (R424) and recovery (R428). Answering the requester is the
dictionary's. -/

namespace Sys2Proof

open Sys2Proof.Machine

/-- Commands of an initialisation of slot 0 (R398), as far as the device passes it, and of the awake path (R400; PRESUMED, log entry 46). -/
def S0In.checked (x : S0In) : Bool := decide (8 ≤ x.rev) && bit x.types.toNat 4 && decide (2 ^ 26 ≤ x.capacity)
def S0In.tuning (x : S0In) : List CardCmd := List.replicate x.tunes ⟨false, 21, 0⟩
/-- PRESUMED, log entry 46. -/
def S0In.initCmds (x : S0In) : List CardCmd :=
  ⟨false, 0, 0⟩ :: List.replicate x.ocrs ⟨false, 1, 0x40000080⟩
    ++ if !x.ocr then []
       else
         [⟨false, 2, 0⟩, ⟨false, 3, 0x00010000⟩, ⟨false, 9, 0x00010000⟩, ⟨false, 7, 0x00010000⟩, ⟨false, 8, 0⟩]
           ++ if !x.checked then []
              else (if x.cache then [⟨false, 6, 0x03210000⟩] else []) ++ [⟨false, 6, 0x03B70200⟩, ⟨false, 6, 0x03B90200⟩] ++ x.tuning
/-- PRESUMED, log entry 46. -/
def S0In.awakeCmds (x : S0In) : List CardCmd := [⟨false, 5, 0x00010000⟩, ⟨false, 7, 0x00010000⟩] ++ x.tuning

/-- Steps 2 to 6 of R398 succeed: the OCR in time, the checks of R397, and tuning. -/
def S0In.ok (x : S0In) : Bool := x.ocr && x.checked && x.tuned

end Sys2Proof

namespace Sys2Proof.Machine

/-! ## Slot 0 (R396, R399) -/

/-- Byte offsets of the user area (R399): images A and B, staging, and page number `pseq` of the journal area (R418). -/
def imageAt (k : Fin 2) : Nat := 2 ^ 20 * (k.val + 1)
def stagingAt (seg segSize : Nat) : Nat := 3 * 2 ^ 20 + seg * segSize
def Jnl.pageAt (j : Jnl) (pseq : Nat) : Nat := 2 ^ 23 + 4096 * (pseq % j.pages)

/-- A reliable write of `len` bytes from byte offset `off` on: CMD23 with bit 31, then CMD25 (R396). (PRESUMED, log entry 46.) -/
def writeCmds (off len : Nat) : List CardCmd :=
  [⟨false, 23, 2 ^ 31 + (ceilDiv (off + len) 512 - off / 512)⟩, ⟨false, 25, off / 512⟩]

/-- A read: CMD23, then CMD18. (PRESUMED, log entry 46.) -/
def readCmds (off len : Nat) : List CardCmd := [⟨false, 23, ceilDiv (off + len) 512 - off / 512⟩, ⟨false, 18, off / 512⟩]

/-- A request in RPMB and its answer: CMD6 to the partition and back, one frame out and one in (R402, R403; PRESUMED, log entry 46). -/
def rpmbAsk : List CardCmd :=
  [⟨false, 6, 0x03B30300⟩, ⟨false, 23, 1⟩, ⟨false, 25, 0⟩, ⟨false, 23, 1⟩, ⟨false, 18, 0⟩, ⟨false, 6, 0x03B30000⟩]

/-- An authenticated RPMB write: the write and the request of its result, and the result (R402, R403; PRESUMED, log entry 46). -/
def rpmbCmds : List CardCmd :=
  [⟨false, 6, 0x03B30300⟩, ⟨false, 23, 2 ^ 31 + 1⟩, ⟨false, 25, 0⟩, ⟨false, 23, 1⟩, ⟨false, 25, 0⟩, ⟨false, 23, 1⟩, ⟨false, 18, 0⟩,
    ⟨false, 6, 0x03B30000⟩]

/-- Commands go to slot 0, counted (R390). -/
def State.s0Send (s : State) (l : List CardCmd) : State := (s.updJnl fun j => { j with s0Cmds := l }).countBy 0x2022 1 l.length

/-- More commands of the operation under way. -/
def State.s0More (s : State) (l : List CardCmd) : State :=
  (s.updJnl fun j => { j with s0Cmds := j.s0Cmds ++ l }).countBy 0x2022 1 l.length

/-- A write begins, so the device has ended busy for the one before it; for this one it may still be busy when power is lost (R401). (DEDUCED, log entry 47.) -/
def State.s0Begun (s : State) (w : S0Write) : State := s.updJnl fun j => { j with s0Busy := some w }

/-- The device has ended busy for every write so far. -/
def Jnl.s0Ended (j : Jnl) : Jnl := { j with s0Busy := none }

/-! ## Groups (R419 to R421) -/

/-- Index and subindex of a journalled object (R394, R420). -/
def Obj.place : Obj → Nat × Nat
  | .tmpCfg i => (0x1020, i.val + 1)
  | .instDesc n f => (0x1200 + n.val, match f with
    | .credits => 3 | .weight => 4 | .sqCount => 5 | .cqCount => 6 | .slotBase => 7 | .slotQuota => 8 | .edgeQuota => 9
    | .colours => 10 | .tclass => 11 | .tcReserve => 12 | .consumers => 13)
  | .edgeEnable => (0x1800, 1)
  | .s1Enable => (0x1900, 4)
  | .s1Modes => (0x1900, 5)
  | .crcRetries => (0x1900, 9)
  | .jnlDayLimit => (0x1A00, 5)
  | .updState => (0x1B00, 1)
  | .svnFloor => (0x1B00, 3)
  | .updAtWake => (0x1B00, 5)
  | .updBegin => (0x1B10, 1)
  | .coastAfter => (0x1C00, 2)
  | .freewheelAfter => (0x1C00, 3)
  | .wakeEnable => (0x1C00, 4)
  | .wakeCounter => (0x1C00, 5)
  | .backoffTime => (0x1C00, 6)
  | .pelConfig => (0x1D00, 1)
  | .pelMember => (0x1D00, 2)
  | .pelPeer m => (0x1D01, m.val + 1)
  | .fwdEnable => (0x1D10, 1)
  | .fwdAccept => (0x1D10, 2)
  | .fwdEngines => (0x1D10, 3)
  | .tandemRestarts => (0x1E00, 1)
  | .restartWindow => (0x1E00, 2)
  | .mgrIrqMask => (0x1E00, 3)
  | .eoaEnable => (0x1F00, 1)
  | .eoaEtherType => (0x1F00, 2)
  | .eoaMac => (0x1F00, 3)
  | .sessionsMax => (0x1F00, 4)
  | .idleLimit => (0x1F00, 5)
  | .blockCert => (0x1F00, 6)
  | .anchorClear => (0x1F00, 8)
  | .anchorPkg => (0x1F00, 9)
  | .canBind b => (0x1F01, b.val + 1)
  | .imageA => (0x5000, 2)
  | .imageB => (0x5000, 3)
  | _ => (0x1B20, 1)

/-- The head of a record (R420): INDEX, SUB, RKIND and LEN. -/
def recHead (index sub kind len : Nat) : Bytes := toLe 2 index ++ toLe 1 sub ++ toLe 1 kind ++ toLe 4 len

/-- A record of a page body (R420). The index and subindex of a segment bit are zero. (DEDUCED, log entry 29.) -/
def JRec.bytes : JRec → Bytes
  | .value o b => recHead o.place.1 o.place.2 1 b.length ++ b
  | .event e => recHead 0 0 2 32 ++ e.bytes
  | .segment n => recHead 0 0 3 4 ++ toLe 4 n

/-- Bytes of a record; an event record is 32 bytes, a segment number 4. -/
def JRec.size : JRec → Nat
  | .value _ b => 8 + b.length
  | .event _ => 40
  | .segment _ => 12

/-- Pages of a group: bodies of 4,032 bytes (R419, R421). -/
def recPages (l : List JRec) : Nat := max 1 (ceilDiv (l.map JRec.size).sum 4032)

/-- The journal's encryption key (1) and MAC key (2), leaves of DUS (R419). -/
def journalKey (dus : Bytes) (k : Nat) : Bytes := leafKey dus (internalLabel 4 (zeros 8 ++ toLe 1 k)) none

/-- Header of the page with number `pseq` of a group, with `len` bytes of body (R419). -/
def Group.head (g : Group) (pseq len : Nat) : Bytes :=
  [0x4A#8, 0x4E#8, 0x4C#8, 0x31#8] ++ toLe 2 1 ++ toLe 1 (if g.snapshot then 2 else 1) ++ boolBytes (pseq == g.last) ++ toLe 8 pseq
    ++ toLe 8 g.epoch ++ toLe 8 g.snapPseq ++ toLe 8 g.winStart ++ toLe 4 (g.winBytes - 4096 * (g.last - pseq)) ++ toLe 2 len ++ zeros 2

/-- The page with number `pseq` of a group as it stands on the device (R419): header, encrypted body, MAC. -/
def Group.page (g : Group) (pseq : Nat) : Bytes :=
  let body := slice (g.recs.flatMap JRec.bytes) (4032 * (pseq - g.first)) 4032
  let iv := toBe 8 pseq ++ toBe 4 g.epoch ++ zeros 4
  let p := g.head pseq body.length ++ aesCtr (journalKey g.root 1) iv (padTo 4032 body)
  p ++ cmac (journalKey g.root 2) p

/-- A page is valid under these keys' root: MAGIC, FORMAT, Res0 and MAC (R428); the body of one whose MAC verifies decrypts. -/
def pageValid (root b : Bytes) : Bool :=
  b.take 4 == [0x4A#8, 0x4E#8, 0x4C#8, 0x31#8] && le b 4 2 == 1 && decide (byteAt b 7 < 2) && le b 46 2 == 0
    && cmac (journalKey root 2) (b.take 4080) == slice b 4080 16

/-- What a page of the journal area holds: that of the newest group with a page at this index (R418); none where no group has one. -/
def Jnl.journalPage (j : Jnl) (index : Nat) : Option Bytes :=
  (j.groups.reverse.findSome? fun g =>
    ((List.range (g.last + 1 - g.first)).reverse.find? fun i => (g.first + i) % j.pages == index).map fun i => g.page (g.first + i))

/-- Bytes that a group writes. -/
def recBytes (l : List JRec) : Nat := recPages l * 4096

/-- The journal keys descend from DUS (R419). (DEDUCED, log entry 29.) -/
def State.jnlRoot (s : State) : Bytes := s.vault.dus.getD []

/-! ## The budget (R425, R426) -/

/-- Writes are held: from 15/16 of the limit. -/
def State.budgetSpent (s : State) : Bool := 15 * s.cfg.jnlDayLimit ≤ 16 * s.jnl.dayBytes

/-- An ordinary write of n bytes may start. -/
def State.ordinaryFits (s : State) (n : Nat) : Bool :=
  !s.budgetSpent && 16 * (s.jnl.dayBytes + n) ≤ 15 * s.cfg.jnlDayLimit

/-- An exempt write of n bytes may start. -/
def State.exemptFits (s : State) (n : Nat) : Bool := s.jnl.dayBytes + n ≤ s.cfg.jnlDayLimit

/-- JNL_STATE follows the budget while the journal runs. -/
def State.budgetState (s : State) : State :=
  s.updJnl fun j =>
    { j with state := if j.state = .ready ∧ s.budgetSpent then .budgetHeld
                      else if j.state = .budgetHeld ∧ s.budgetSpent = false then .ready else j.state }

/-- Count n bytes written to the device; the first write after a window opens the next one (R425). (DEDUCED, log entry 29.) -/
def State.spend (s : State) (n : Nat) : State :=
  (s.updJnl fun j =>
    { j with dayBytes := j.dayBytes + n, winOpen := true
             winTb := if j.winOpen then j.winTb else s.pins.tbValid
             winElapsed := if j.winOpen then j.winElapsed else 0
             winStart := if j.winOpen then j.winStart else if s.pins.tbValid then s.tbSeconds else 0 }).budgetState

/-- The window is over (R425): TB_TIME has passed its start by a day; or a day has elapsed, where TB_VALID is low or was at its start.
(DEDUCED, log entry 29.) -/
def State.windowOver (s : State) : Bool :=
  s.jnl.winOpen && if s.pins.tbValid && s.jnl.winTb then decide (s.jnl.winStart + 86400 < s.tbSeconds)
    else decide (86400 * 10 ^ 9 ≤ s.jnl.winElapsed)

/-! ## Committing -/

/-- R427: the journal commits nothing now. -/
def State.jnlStopped (s : State) : Bool :=
  s.jnl.state == .none || s.jnl.state == .recovering || s.jnl.state == .failed || s.life.debug || s.jnl.s0State != .ready

/-- A PERSIST commit failed: logged, with the cause JOURNAL (R394, R459). (DEDUCED, log entry 29.) -/
def State.persistFailed (s : State) (index sub : Nat) : State :=
  (s.cause 16).logEvent 0x0031 0xFF (toLe 2 index ++ toLe 1 sub)

/-- The next group with these records, as its pages are written. -/
def State.nextGroup (s : State) (l : List JRec) (snapshot : Bool) : Group :=
  let first := s.jnl.pseq + 1
  { first := first, last := s.jnl.pseq + recPages l, snapshot := snapshot, snapPseq := if snapshot then first else s.jnl.snapPseq, epoch := s.vault.bootEpoch, root := s.jnlRoot
    winTb := s.jnl.winTb, winStart := s.jnl.winStart, winBytes := s.jnl.dayBytes, recs := l }

/-- The pages of the next group go to the device one by one, each as one reliable write of 8 blocks (R418). -/
def State.sendPages (s : State) (l : List JRec) : State :=
  s.s0Send ((List.range (recPages l)).flatMap fun i => writeCmds (s.jnl.pageAt (s.jnl.pseq + 1 + i)) 4096)

/-- The device may still be busy with a segment whose record a group carries; for any other write it has ended busy (R401, R436). -/
def S0Write.isSegment : S0Write → Bool
  | .segment _ _ => true
  | _ => false

/-- A group goes out (R422 step 1), its bytes counted. (DEDUCED, log entry 29.) -/
def State.sendGroup (s : State) (l : List JRec) (snapshot : Bool) : State :=
  let s := (s.spend (recBytes l)).sendPages l
  (s.updJnl fun j =>
    { j with inFlight := some (s.nextGroup l snapshot), sent := false, s0Busy := j.s0Busy.filter (·.isSegment) }).setClocks

/-- Seconds that a group commits: its window's start, and its events' (R379). -/
def Group.seconds (g : Group) : Nat :=
  (g.recs.map fun r => match r with
    | .event e => if e.timeOk then e.time / 10 ^ 9 else 0
    | _ => 0).foldl max (if g.winTb then g.winStart else 0)

/-- The group is durable (R422 steps 2 and 3): the anchor moves in one vault update. (DEDUCED, log entry 29.) -/
def State.groupDurable (s : State) (g : Group) : State :=
  let s := s.updJnl fun j =>
    { j with groups := j.groups ++ [g], inFlight := none, pseq := g.last, sinceSnap := j.sinceSnap + recBytes g.recs
             time := max j.time g.seconds }
  ((s.updVault fun v => { v with journalAnchor := g.last }).countBy 0x2019 1 g.recs.length).countBy 0x2019 2 (recBytes g.recs)

/-- A group that the boot ROM writes and waits for, as it runs alone: durable in its step. (DEDUCED, log entry 47.) -/
def State.romGroup (s : State) (l : List JRec) (snapshot : Bool) : State :=
  let s := (s.spend (recBytes l)).sendPages l
  (s.groupDurable (s.nextGroup l snapshot)).updJnl Jnl.s0Ended

/-- The group failed, its retries of R407 spent. -/
def State.groupFailed (s : State) : State := (s.updJnl fun j => { j with inFlight := none }).setClocks

/-! ## Groups of the block's own (R392, R424, R426) -/

/-- The journal is free for a group of the block's own. -/
def State.jnlFree (s : State) : Bool := !s.jnlStopped && s.jnl.inFlight.isNone && s.jnl.s0Init.isNone

/-- Held event records that one group may carry: 64 pages at most (R421). -/
def eventBatch (l : List Event) : List Event := l.take 6000

/-- Held event records may be committed now. -/
def State.eventsReady (s : State) : Bool :=
  s.jnlFree && !s.jnl.heldEvents.isEmpty && s.exemptFits (recBytes ((eventBatch s.jnl.heldEvents).map .event))

/-- Values of the block's own may be committed now. -/
def State.recsReady (s : State) : Bool := s.jnlFree && !s.jnl.heldRecs.isEmpty && s.exemptFits (recBytes s.jnl.heldRecs)

/-- Values that the block itself sets wait for a group, in place of earlier ones of the same objects. (DEDUCED, log entry 29.) -/
def State.holdRecs (s : State) (l : List JRec) : State :=
  let at_ (r : JRec) : Option Obj := match r with
    | .value o _ => some o
    | _ => none
  s.updJnl fun j => { j with heldRecs := (j.heldRecs.filter fun r => l.all fun x => at_ x != at_ r) ++ l }

/-- A group carries these records: they are held no more. -/
def Jnl.carried (j : Jnl) (l : List JRec) : Jnl :=
  { j with heldEvents := j.heldEvents.filter fun e => !l.contains (.event e), heldRecs := j.heldRecs.filter fun r => !l.contains r }

/-! ## RPMB (R402, R423) -/

/-- The RPMB key: a leaf of DUS, or of TEST while debug is enabled (R97, R402). -/
def State.rpmbKey (s : State) : Option Bytes := (s.rootKey 0).map fun r => leafKey r (internalLabel 3 []) none

/-- RPMB may be written: it is keyed, under the key that the block would use now, and slot 0 is READY (R97, R402, R423). -/
def State.rpmbUsable (s : State) : Bool :=
  !s.jnl.rpmb.foreign && s.jnl.s0State == .ready && s.jnl.rpmb.key.isSome && s.jnl.rpmb.key == s.rpmbKey

/-- Half-sector 0 with these values (R423). -/
def halfSector0 (pseq floor : Nat) : Bytes := [0x52#8, 0x50#8, 0x30#8, 0x31#8] ++ toLe 8 pseq ++ toLe 4 floor ++ zeros 240

/-- JNL_PSEQ and SVN_FLOOR of half-sector 0, where it holds valid content (R423, R428). -/
def Rpmb.witness (r : Rpmb) : Option (Nat × Nat) :=
  if r.half0.take 4 = [0x52#8, 0x50#8, 0x30#8, 0x31#8] ∧ allZero (slice r.half0 16 240) = true then some (le r.half0 4 8, le r.half0 12 4)
  else none

/-- One authenticated write (R402, R425). -/
def State.rpmbWrite (s : State) (w : S0Write) (f : Rpmb → Rpmb) : State :=
  (((s.spend 512).s0Send rpmbCmds).s0Begun w).updJnl fun j => { j with rpmb := { f j.rpmb with counter := j.rpmb.counter + 1 } }

/-- Half-sector 0 is due, an exempt write of one frame (R423, R426): written, or held until the budget has room. -/
def State.writeHalf0 (s : State) : State :=
  if !s.rpmbUsable then s
  else if s.exemptFits 512 then
    let h := halfSector0 s.vault.journalAnchor s.cfg.svnFloor
    (s.updJnl fun j => { j with half0Due := false }).rpmbWrite (.half0 s.jnl.rpmb.half0) fun r => { r with half0 := h }
  else s.updJnl fun j => { j with half0Due := true }

/-- The selection as it stands (R431). (DESIGN CHOICE, log entry 50.) -/
def Jnl.selection (j : Jnl) : Selection := ⟨j.active, j.trial, j.images.map fun i => (i.version, i.svn, i.state)⟩

/-- Half-sector 1 is due: the selection (R431). -/
def State.writeHalf1 (s : State) : State :=
  if !s.rpmbUsable then s
  else if s.exemptFits 512 then
    (s.updJnl fun j => { j with half1Due := false }).rpmbWrite (.half1 s.jnl.rpmb.half1) fun r => { r with half1 := some s.jnl.selection }
  else s.updJnl fun j => { j with half1Due := true }

/-- The selection's values in the journal (R431). -/
def Jnl.imageRecs (j : Jnl) : List JRec := [.value .imageA (j.imageValue 0), .value .imageB (j.imageValue 1)]

/-- The selection has changed: RPMB takes it, and the journal with its next group (R431). (DEDUCED, log entry 29.) -/
def State.commitSelection (s : State) : State := (s.writeHalf1).holdRecs s.jnl.imageRecs

/-! ## Snapshots (R424) -/

/-- What a snapshot carries: every PERSIST value, the anchors, the selection, the stored segments, the last 256 events. -/
def State.snapRecs (s : State) : List JRec :=
  persistObjs.map (fun o => .value o (s.valueOf o))
    ++ ((List.finRange 8).filterMap fun k => (s.cfg.anchors[k]).map fun a =>
        .value .anchorPkg (zeros 2 ++ toLe 1 k.val ++ toLe 1 a.roles ++ zeros 4 ++ toLe 8 a.seq ++ zeros 16 ++ a.ec ++ a.pq))
    ++ s.jnl.imageRecs ++ s.jnl.updMap.map .segment ++ s.jnl.events.map .event

/-- A snapshot is due: at 75 % fill, each 256 KiB of groups, or asked for. -/
def State.snapDue (s : State) : Bool :=
  s.jnl.state == .compacting || s.jnl.snapAsked || decide (75 ≤ s.jnl.fill) || decide (2 ^ 18 ≤ s.jnl.sinceSnap)

/-- A snapshot group is durable: older groups hold nothing live, and what was held and is in it waits no more. -/
def State.snapshotDurable (s : State) (g : Group) : State :=
  let s := (s.groupDurable g).count 0x2019 3
  let s := s.updJnl fun j =>
    { (j.carried g.recs) with
      groups := j.groups.drop (j.groups.length - 1), snapPseq := g.first, sinceSnap := 0, snapAsked := false
      state := if j.state = .compacting then .ready else j.state }
  (s.writeHalf0).budgetState

/-- JOURNAL_SNAPSHOT: the snapshot is begun when due and the budget has room, and JNL_STATE reads COMPACTING until it is durable; with
the area 95 % full and no room, the journal fails (R427); else it stays due (R426). (DEDUCED, log entry 29.) -/
def State.snapshotStep (s : State) : State :=
  if !s.jnlFree || !s.snapDue then s
  else if s.exemptFits (recBytes s.snapRecs) then (s.sendGroup s.snapRecs true).updJnl fun j => { j with state := .compacting }
  else if 95 ≤ s.jnl.fill then (s.updJnl fun j => { j with state := .failed }).cause 16
  else
    (s.updJnl fun j =>
      { j with snapAsked := true, state := if j.state = .compacting then .ready else j.state }).budgetState

/-- A group of the block's own is durable: what it carries waits no more. -/
def State.ownDurable (s : State) (g : Group) : State :=
  if g.snapshot then s.snapshotDurable g else (s.groupDurable g).updJnl fun j => j.carried g.recs

/-- What waits for the budget or the device goes out as far as it may: RPMB frames, then one group, of the block's own values, a
snapshot that is due, or the held events (R424, R426). (DEDUCED, log entry 29.) -/
def State.ownWrites (s : State) : State :=
  let s := if s.jnl.half1Due then s.writeHalf1 else s
  let s := if s.jnl.half0Due then s.writeHalf0 else s
  let s := if s.recsReady then s.sendGroup s.jnl.heldRecs false else s
  let s := if s.jnl.snapAsked then s.snapshotStep else s
  if s.eventsReady then s.sendGroup ((eventBatch s.jnl.heldEvents).map .event) false else s

/-! ## Recovery (R428, R429) -/

/-- Apply one record of a durable group. -/
def State.replay (s : State) : JRec → State
  | .value o b => s.applyValue o b
  | .event e => s.updJnl fun j => { j with events := (j.events ++ [e]).drop (j.events.length + 1 - 256), evtSeq := e.seq }
  | .segment n => s.updJnl fun j => j.segment n

/-- Apply a group; a snapshot carries the whole event log. (DEDUCED, log entry 29.) -/
def State.replayGroup (s : State) (g : Group) : State :=
  let s := if g.snapshot then s.updJnl fun j => { j with events := [] } else s
  s.each g.recs fun s r => s.replay r

/-- The window of the head page goes on (R425), with what start-up has written since. -/
def Jnl.restore (j : Jnl) (g : Group) : Jnl :=
  { j with winOpen := true, winTb := g.winTb, winStart := g.winStart, dayBytes := g.winBytes + j.dayBytes }

/-- Every page of the group is valid under the DUS the block now holds (R428). -/
def State.readable (s : State) (g : Group) : Bool :=
  (List.range (g.last + 1 - g.first)).all fun i => pageValid s.jnlRoot (g.page (g.first + i))

/-- A fresh journal at a page number: a snapshot of what stands, and the window of the first write. -/
def State.freshJournal (s : State) (at_ : Nat) : State :=
  let s := s.updJnl fun j =>
    { j with groups := [], inFlight := none, pseq := at_ - 1, sinceSnap := 0, state := .ready
             events := j.heldEvents.drop (j.heldEvents.length - 256) }
  let l := s.snapRecs
  let s := (s.romGroup l true).count 0x2019 3
  ((s.updJnl fun j =>
    { (j.carried l) with snapPseq := at_, sinceSnap := 0, snapAsked := false }).writeHalf0).budgetState

end Sys2Proof.Machine
end

