-- ==== Sys2Proof/Machine/CardOps.lean ====
section
/-! DEFINITION. Slot 1 and Wefoette records: the record and its check (R411, R413), the insertion check (R414), the removal
sequence and the debounce (R69, R409, R410), and the steps of an append (R415). -/

namespace Sys2Proof

open Sys2Proof.Machine

/-- Commands of steps 1 to 4 of R405, as far as the card answers them; CMD11 comes a second time after a power cycle (PRESUMED, log
entry 46). -/
def CardIn.firstCmds (c : CardIn) : List CardCmd :=
  let begin_ : List CardCmd := [⟨false, 0, 0⟩, ⟨false, 8, 0x1AA⟩]
  let polls : List CardCmd := List.replicate c.polls ⟨true, 41, 0x51300000⟩
  if !c.echo then begin_
  else if !(c.ready && c.ccs && c.s18a) then begin_ ++ polls
  else
    let once := begin_ ++ polls ++ [⟨false, 11, 0⟩]
    if c.switch1 then once else once ++ once

/-- Commands of steps 5 to 7 of R405 for the mode chosen, none where no mode serves, and the read of step 8 (PRESUMED, log entry 46). -/
def CardIn.laterCmds (c : CardIn) (mode : Option Nat) : List CardCmd :=
  [⟨false, 2, 0⟩, ⟨false, 3, 0⟩, ⟨false, 9, c.rca * 2 ^ 16⟩, ⟨false, 7, c.rca * 2 ^ 16⟩, ⟨true, 6, 2⟩, ⟨false, 6, 0x00FFFFFF⟩]
    ++ match mode with
      | none => []
      | some m =>
        (⟨false, 6, 0x80FFFFF0 + m⟩ : CardCmd) :: (if m = 2 ∨ m = 3 then [⟨false, 19, 0⟩] else [])
          ++ (if c.later then [⟨false, 18, 0x800⟩, ⟨false, 12, 0⟩] else [])

end Sys2Proof

namespace Sys2Proof.Machine

/-! ## Records -/

/-- The CARD key (R411); none where DUS is not usable. -/
def State.cardKey (s : State) : Option Bytes := (s.rootKey 0).map fun r => leafKey r (internalLabel 5 []) none

/-- Record bytes up to the MAC (R411). -/
def State.recordBody (s : State) (c : Fin 16) (n : Nat) (payload : Bytes) : Bytes :=
  [0x57#8, 0x46#8, 0x45#8, 0x31#8] ++ toLe 2 1 ++ toLe 1 (c.val + 1) ++ boolBytes s.life.debug ++ toLe 8 n ++ fingerprint
    ++ toLe 4 payload.length ++ zeros 4 ++ timeBytes s.pins.tbValid s.pins.tbTime ++ toLe 8 s.vault.bootEpoch ++ zeros 6
    ++ payload

/-- A whole record. -/
def State.record (s : State) (key : Bytes) (c : Fin 16) (n : Nat) (payload : Bytes) : Bytes :=
  let b := s.recordBody c n payload
  b ++ cmac key b

/-- A place's content is a valid record of counter c (R413). -/
def State.validRecord (s : State) (c : Fin 16) (b : Bytes) : Bool :=
  let n := le b 32 4
  match s.cardKey with
  | none => false
  | some key =>
    b.take 4 == [0x57#8, 0x46#8, 0x45#8, 0x31#8] && le b 4 2 == 1 && byteAt b 6 == c.val + 1 && byteAt b 7 == flag s.life.debug
      && le b 8 8 != 0 && slice b 16 16 == fingerprint && 1 ≤ n && n ≤ 4096 && allZero (slice b 36 4) && allZero (slice b 58 6)
      && 80 + n ≤ b.length && cmac key (b.take (64 + n)) == slice b (64 + n) 16

/-- Content of a record place. -/
def placeOf (places : List (Nat × Bytes)) (p : Nat) : Bytes := (places.lookup p).getD []

/-- Valid records of counter c that are not numbered above v + 1 (R413, R414). -/
def State.recordsOf (s : State) (places : List (Nat × Bytes)) (c : Fin 16) : List Bytes :=
  ([placeOf places (2 * c.val), placeOf places (2 * c.val + 1)].filter (s.validRecord c)).filter fun b =>
    decide (le b 8 8 ≤ s.vault.cardCounters[c].toNat + 1)

/-- The insertion check of one counter (R414). -/
def State.checkCounter (s : State) (places : List (Nat × Bytes)) (c : Fin 16) : State :=
  let v := s.vault.cardCounters[c].toNat
  let l := s.recordsOf places c
  let h := (l.map fun b => le b 8 8).foldl max 0
  let payload := ((l.find? fun b => le b 8 8 == h).map fun b => slice b 64 (le b 32 4)).getD []
  let set (s : State) (check : Nat) (last : Bytes) : State :=
    s.updCard fun d => { d with recs := d.recs.set c ⟨h, check, last⟩ }
  if h = 0 then set s 4 []
  else if h = v then set s 1 payload
  else if h = v + 1 then
    let s := s.updVault fun x => { x with cardCounters := x.cardCounters.set c (BitVec.ofNat 64 h) }
    (set s 2 payload).logEvent 0x0033 0xFF [BitVec.ofNat 8 (c.val + 1)]
  else (set s 3 []).logEvent 0x0032 0xFF [BitVec.ofNat 8 (c.val + 1)]

/-- The insertion check (R414). -/
def State.insertionCheck (s : State) (places : List (Nat × Bytes)) : State :=
  s.each (List.finRange 16) fun s c => s.checkCounter places c

/-! ## Commands to slot 1 (R404) -/

/-- Commands go to the card, counted (R390). -/
def State.s1Send (s : State) (l : List CardCmd) : State := (s.updCard fun d => { d with cmds := l }).countBy 0x2023 1 l.length

/-! ## Power of slot 1 -/

/-- Slot 1 unpowered (R68, R69). -/
def State.cardOff (s : State) : State := s.updPins fun p => { p with s1Pwr := false, s1Vsel := false, s1Clk := false }

/-- The removal sequence (R69, R409): the append under way is given up; its requester is answered by the dictionary. -/
def State.removeCard (s : State) (st : S1St) : State :=
  s.cardOff.updCard fun d =>
    { d with state := st, mode := 0xFF, cid := zeros 16, append := none, init := none
             recs := d.recs.map fun r => { r with last := [] } }

/-- DEBOUNCE where a card is present, or EMPTY (R409, R410). -/
def State.debounce (s : State) : State :=
  if s.pins.s1CdHigh then s.updCard fun d => { d with state := .empty } else s.updCard fun d => { d with state := .debounce }

/-- Slot 1 enters FAILED, its card unpowered (R405, R407). -/
def State.cardFailed (s : State) : State :=
  s.cardOff.updCard fun d => { d with state := .failed, mode := 0xFF, cid := zeros 16, append := none, init := none }

/-- Modes in the order of R405 step 7: SDR104, SDR50, DDR50, SDR25, SDR12, by their bit of S1_MODES. -/
def modeOrder : List Nat := [3, 2, 4, 1, 0]

/-- The mode that initialisation chooses among those supported and permitted; a change of S1_MODES waits for the next one (R377, R405). -/
def State.chooseMode (s : State) (supported : BitVec 8) : Option Nat :=
  modeOrder.find? fun m => bit s.card.permitted.toNat m && bit supported.toNat m

/-- The next lower mode (R407 stage 2). (DEDUCED, log entry 31.) -/
def State.lowerMode (s : State) (now : Nat) : Option Nat :=
  ((modeOrder.dropWhile (· != now)).drop 1).find? fun m => bit s.card.permitted.toNat m && bit s.card.supported.toNat m

/-- The modes from m downwards, as bits of S1_MODES. -/
def modesFrom (m : Nat) : BitVec 8 := BitVec.ofNat 8 ((modeOrder.dropWhile (· != m)).map (2 ^ ·)).sum

/-- S1_ENABLE written (R410): a write of 0 runs the removal sequence, POWER_OFF first and DISABLED after its 10 ms; a write of 1 enters
DEBOUNCE, once a removal sequence under way is over. (DEDUCED, log entry 31.) -/
def State.enableCard (s : State) (on : Bool) : State :=
  if !on then s.removeCard .powerOff else if s.card.state = .powerOff then s else s.debounce

/-! ## Appending (R415) -/

/-- First block of the place of the append's record (R412). -/
def Append.lba (a : Append) : Nat := 0x800 + (2 * a.counter.val + a.number % 2) * 16

/-- Blocks that its data phase writes (R415). -/
def Append.blocks (a : Append) : Nat := ceilDiv a.bytes.length 512

/-- Commands of the data phase and of the read-back (R415). -/
def Append.writeCmds (a : Append) : List CardCmd := [⟨false, 25, a.lba⟩, ⟨false, 12, 0⟩]
def Append.readCmds (a : Append) : List CardCmd := [⟨false, 18, a.lba⟩, ⟨false, 12, 0⟩]

/-- Step 1: record v + 1 of the selected counter. (DEDUCED, log entry 31.) -/
def State.startAppend (s : State) (key payload : Bytes) : State :=
  let c := s.cfg.recCounter
  let n := s.vault.cardCounters[c].toNat + 1
  let a : Append := ⟨c, n, s.record key c n payload, payload, .data, 0, false, false⟩
  (((s.exchange 1 (.tbTime s.pins.tbTime)).updCard fun d => { d with append := some a }).s1Send a.writeCmds).setClocks

/-- Steps 5 and 6: the vault counter advances, REC_LAST and CARD_VALUE follow. -/
def State.commitAppend (s : State) (a : Append) : State :=
  let s := s.updVault fun x => { x with cardCounters := x.cardCounters.set a.counter (BitVec.ofNat 64 a.number) }
  s.updCard fun d =>
    { d with append := none
             recs := d.recs.set a.counter ⟨a.number, d.recs[a.counter].check, a.payload⟩ }

end Sys2Proof.Machine
end

