-- ==== Sys2Proof/Machine/ResetOps.lean ====
section
/-! DEFINITION. What assertion of DIE_RST_N resets: the whole block except the always-on domain and the vault (R55, R47,
R491, R492). Used by DIE_RST_N_ASSERT, a power loss and the restart of a life-cycle transition (R94). -/

namespace Sys2Proof.Machine

/-- Outputs at their reset values, the always-on ones but for CAS_BYPASS left alone (R46, R47); input levels stay. -/
def Pins.dieReset (p : Pins) : Pins :=
  { p with kbZeroise := true, casBypass := true, dbgPermit := false, kb := none, tgtRsp := false, tgtErr := false, tgtRdata := 0#64
           s0Pwr := false, s0RstN := false, s0Clk := false, s1Pwr := false, s1Vsel := false, s1Clk := false }

/-- Held in die reset. FREEWHEEL ends only at a release (R472), so what it retains stays. -/
def Pwr.toReset (p : Pwr) : Pwr :=
  { p with boot := .held, dieReset := true, starting := none, bootStep := .first, resident := false, prep := none, coastCause := false, coastSince := none, calmSince := none
           state := if p.state == .coast then .run else p.state
           retained := if p.state == .freewheel then p.retained else none }

/-- R96, R105, R116, R434. -/
def Life.dieReset (l : Life) : Life :=
  { l with auth := [], debug := false, debugSince := false, hostMeasure := none, attest := []
           fwMeasure := zeros 48, fwSvn := 0 }

/-- Every slot empties, its generation advancing (R110, R115); the resolution serial starts again at 1 (R106). -/
def Keys.dieReset (k : Keys) : Keys :=
  let gens := (k.slots.foldl (fun k p => (List.range p.2.run).foldl (fun k d => k.bumpGen (p.1 + d)) k) k).gens
  { Keys.empty with gens := gens }

/-- Counters count from die reset, but for the sentry's (R388). -/
def Cnt.dieReset (c : Cnt) : Cnt := { Cnt.reset with now := c.now.filter fun p => p.1 / 256 == 0x2018 }

/-- VOLATILE configuration takes its defaults; the rest only where nothing retains it (R344, R435), but for what the
sentry works by. -/
def Cfg.dieReset (c : Cfg) (kept : Bool) : Cfg :=
  if kept then
    { c with tcCycleMin := 125000, windows := .replicate 64 ⟨0xFFFF, 0, false, none⟩, chanOwner := .replicate 96 none
             recCounter := 0 }
  else { Cfg.default with wakeEnable := c.wakeEnable, wakeCounter := c.wakeCounter, backoffTime := c.backoffTime }

/-- What the device holds, what it was still busy with, and held event records stay (R392, R401, R429); the rest starts again. (DEDUCED, log entry 29.) -/
def Jnl.dieReset (j : Jnl) : Jnl :=
  { j with s0State := .off, s0Init := none, s0Cycle := false, s0Waits := false, s0Hs200 := false, s0Cache := true, s0Cmds := [], s0Cid := zeros 16, s0Cap := 0, s0Stage := 0, s0Tries := 0, state := .none
           snapAsked := false, headDue := none, heldRecs := [], half0Due := false, half1Due := false, runImage := 0, bootResult := 0, updOpen := none }

/-- Instances stand in FREE with their hands until new ones are dealt (R131, R141); instance 0's staged values are
kept only where the live state is. -/
def State.resetInsts (s : State) (kept : Bool) : Vector Inst 128 :=
  (s.insts.map fun i => Inst.blank Desc.default i.hand).set 0
    (Inst.blank (if kept then (s.inst 0).staged else Desc.default0) (s.inst 0).hand)

/-- Assertion of DIE_RST_N. Accesses in flight are abandoned (R491). -/
def State.dieReset (s : State) : State :=
  let pwr := s.pwr.toReset
  let kept := pwr.retained.isSome
  { s with
    pins := s.pins.dieReset, pwr := pwr, sentry := { s.sentry with degraded := false }, life := s.life.dieReset
    keys := s.keys.dieReset, insts := s.resetInsts kept
    sqs := .replicate 512 Sq.reset, cqs := .replicate 256 Cq.reset, jobs := [], units := Units.reset
    fab := { Fab.reset with nextId := s.fab.nextId }, irq := ⟨none, []⟩, rt := Rt.reset, cnt := s.cnt.dieReset
    dict := Dict.reset, cfg := s.cfg.dieReset kept, jnl := s.jnl.dieReset, card := Card.reset, flt := Flt.reset
    rng := Rng.reset, edge := Edge.reset, eoa := Eoa.reset, cas := { Cas.reset with parting := s.parting }
    disp := { Disp.reset with nextJob := s.disp.nextJob } }

/-! ## Power loss -/

/-- Events that groups hold, a snapshot carrying the whole log. -/
def eventsIn (l : List Group) : List Event :=
  l.foldl (fun es g =>
    (if g.snapshot then [] else es) ++ g.recs.filterMap fun r => match r with
      | .event e => some e
      | _ => none) []

/-- Event records in tandem memory are lost with the power; the log stands as the journal holds it (R392). (DEDUCED, log entry 29.) -/
def Jnl.loseHeld (j : Jnl) : Jnl :=
  let es := eventsIn j.groups
  { j with heldEvents := [], events := es.drop (es.length - 256), evtSeq := ((es.getLast?).map (·.seq)).getD 0 }

/-- The core loses its power (R53, R81): as a die reset, and what tandem memory held is gone. The host chip states rails and clocks
again before it releases DIE_RST_N (R53, R79). (DEDUCED, log entry 28.) -/
def State.losePower (s : State) : State :=
  let s := if s.pwr.dieReset then s else s.dieReset
  ((s.updJnl Jnl.loseHeld).updPwr fun p => { p with powerLost := true }).updPins fun p => { p with pmRailsOk := false, pmClksOk := false }

end Sys2Proof.Machine
end

