-- ==== Sys2Proof/Machine/Objects.lean ====
section
/-! DEFINITION. Writes to dictionary objects, from step 6 of R345 on: value rules (RANGE), state rules (STATE_CONFLICT),
signatures (AUTH_FAIL), and the effect of each object that is not journalled. Steps 1 to 5 and the journal are the
dictionary service's. -/

namespace Sys2Proof.Machine

/-- How a checked write goes on: it has ended with this status; its values go to the journal; it appends a Wefoette
record (R378); or it has no answer (R94). -/
inductive WEnd where
  | ended (st : EStatus) (s : State)
  | commit (writes : List (Obj × Bytes))
  | append (key payload : Bytes)
  | silent (s : State)
  deriving DecidableEq, Repr

/-- A refused write changes nothing. -/
def State.refuse (s : State) (st : EStatus) : WEnd := .ended st s

/-- RANGE where a value rule fails, STATE_CONFLICT where a state rule does, else the effect. -/
def State.ruled (s : State) (inRange allowed : Bool) (f : Unit → WEnd) : WEnd :=
  if !inRange then s.refuse .range else if !allowed then s.refuse .stateConflict else f ()

/-- A write that ends OK with effect f, under its rules. -/
def State.effect (s : State) (inRange allowed : Bool) (f : Unit → State) : WEnd :=
  s.ruled inRange allowed fun _ => .ended .ok (f ())

/-- The status and state of a command. -/
def WEnd.of (r : EStatus × State) : WEnd := .ended r.1 r.2

/-! ## Value rules -/

/-- A power of two from lo to hi. -/
def powerIn (v lo hi : Nat) : Bool := decide (lo ≤ v ∧ v ≤ hi) && 2 ^ Nat.log2 v == v

/-- A host address (R12), aligned. -/
def addrOk (v align : Nat) : Bool := decide (v < 2 ^ 52) && v % align == 0

/-- R129: one staged value lies in its range. -/
def descOk (f : DescField) (b : Bytes) : Bool :=
  let v := ofLe b
  match f with
  | .credits => decide (1 ≤ v ∧ v ≤ 16384)
  | .weight => decide (1 ≤ v ∧ v ≤ 255)
  | .sqCount => decide (1 ≤ v ∧ v ≤ 16)
  | .cqCount => decide (1 ≤ v ∧ v ≤ 8)
  | .slotBase => decide (v ≤ 8191)
  | .slotQuota => decide (v ≤ 8192)
  | .edgeQuota => decide (v ≤ 512)
  | .colours => decide (byteAt b 0 ≤ 4) && allZero (b.drop (1 + byteAt b 0))
  | .tclass => decide (v ≤ 1)
  | .tcReserve => (List.range 4).all fun k => decide (byteAt b k ≤ tcPool k)
  | .consumers => true

/-- CAN_BIND (R362): identifiers within their frame format. (DEDUCED, log entry 23.) -/
def canBindOk (b : Bytes) : Bool :=
  let lim := if bit (byteAt b 1) 0 then 2 ^ 29 else 2 ^ 11
  (decide (byteAt b 0 ≤ 63) || byteAt b 0 == 0xFF) && decide (byteAt b 1 < 4) && allZero (slice b 2 2)
    && decide (le b 4 4 < lim) && decide (le b 8 4 < lim) && byteAt b 15 == 0

/-- UPD_BEGIN (R380). -/
def updBeginOk (b : Bytes) : Bool :=
  decide (1 ≤ le b 0 4 ∧ le b 0 4 ≤ 1048576) && powerIn (le b 4 4) 1024 65536 && allZero (slice b 12 4)

/-- Value rule of a journalled object (R374 to R386, R272, R319, R362). -/
def State.persistRange (s : State) (o : Obj) (b : Bytes) : Bool :=
  let v := ofLe b
  match o with
  | .tmpCfg i =>
    decide (byteAt b 0 ≤ 2) && decide (byteAt b 1 ≤ 1) && (decide (2 ≤ i.val) || (byteAt b 0 == 2 && byteAt b 1 == 0))
  | .instDesc _ f => descOk f b
  | .s1Modes => decide (v < 32) && bit v 0
  | .crcRetries => decide (v ≤ 8)
  | .jnlDayLimit => decide (1000000 ≤ v ∧ v ≤ 64000000)
  | .svnFloor => decide (s.cfg.svnFloor ≤ v ∧ v ≤ s.life.fwSvn)
  | .coastAfter => decide (v ≤ 1000000)
  | .freewheelAfter => decide (v ≤ 86400)
  | .wakeCounter => decide (v ≤ 64)
  | .backoffTime => decide (10 ≤ v ∧ v ≤ 3600)
  | .pelConfig => decide (v ≤ 2)
  | .pelMember => decide (v ≤ 3)
  | .pelPeer m =>
    allZero b || (b != fingerprint && (List.finRange 4).all fun k => k == m || s.cfg.pelPeers[k] != b)
  | .fwdEngines => decide (v ≤ 4)
  | .tandemRestarts => decide (1 ≤ v ∧ v ≤ 64)
  | .restartWindow => decide (10 ≤ v ∧ v ≤ 60000)
  | .eoaEtherType => decide (0x0600 ≤ v) && v != 0x8100 && v != 0x88A8
  | .eoaMac => !bit (byteAt b 0) 0
  | .sessionsMax => decide (1 ≤ v ∧ v ≤ 8)
  | .idleLimit => decide (10 ≤ v ∧ v ≤ 86400)
  | .canBind _ => canBindOk b
  | .anchorClear => decide (byteAt b 0 < 8) && decide (byteAt b 1 < 8) && allZero (slice b 2 6)
  | .updBegin => updBeginOk b
  | .blockCert => b.isEmpty || (le b 0 2 == 0x0301 && decide (byteAt b 2 < 8) && byteAt b 3 == 0 && allZero (slice b 4 4)
      && slice b 24 16 == fingerprint && slice b 40 2049 == s.eoaPub)
  | _ => true

/-- State rule of a journalled object. -/
def State.persistState (s : State) (o : Obj) (b : Bytes) : Bool :=
  let v := ofLe b
  match o with
  | .tmpCfg i => s.life.fuse != .field || decide (s.tamper.cfg[i].cls.code ≤ byteAt b 0)
  | .edgeEnable => v != 0 || (s.edge.queue.isEmpty && s.edge.lanes.toList.all (·.isNone))
  | .wakeEnable => v == 0 || (s.vault.keyBits != 0 && s.cfg.wakeCounter != 0)
  | .wakeCounter => !s.cfg.wakeEnable
  | .fwdAccept => v == 0 || s.cas.role != .lead
  | .updBegin => s.jnl.updOpen.isNone
  | _ => true

/-- The anchor in slot k, where one stands (R363). -/
def State.anchorAt (s : State) (k : Nat) : Option Anchor :=
  (s.cfg.anchors.toList.getD k none).filter fun a => a.roles != 0

/-- Both signatures of a certificate of R364 verify under an anchor. -/
def certSigsOk (a : Anchor) (b : Bytes) : Bool :=
  pairSigsOk (a.ec ++ a.pq) (b.take 2089) (slice b 2089 96) (slice b 2185 3309)

/-- BLOCK_CERT's signatures (R362). -/
def State.blockCertOk (s : State) (b : Bytes) : Bool :=
  b.isEmpty || match s.anchorAt (byteAt b 2) with
    | some a => certSigsOk a b
    | none => false

/-- A write to a journalled object. A resumed UPD_BEGIN commits nothing (R381), but is refused where the journal is (R427). A certificate that fails under its anchor is logged as
ANCHOR_FAIL (R346, R394; DEDUCED, log entry 23). -/
def State.persistWrite (s : State) (o : Obj) (b : Bytes) : WEnd :=
  s.ruled (s.persistRange o b) (s.persistState o b) fun _ =>
    if o = .blockCert ∧ !s.blockCertOk b then (s.logEvent 0x0008 0xFF [BitVec.ofNat 8 (byteAt b 2)]).refuse .authFail
    else if o = .updBegin ∧ s.jnl.sameUpdate b then
      if s.jnlStopped then (s.persistFailed 0x1B10 1).refuse .persistFail else .ended .ok s
    else .commit [(o, b)]

/-! ## Life cycle (R91 to R96) -/

/-- A new LC_CHALLENGE (R92). (DESIGN CHOICE, log entry 4.) -/
def State.newChallenge (s : State) : State :=
  let r := s.drawBytes false 16
  (r.2.exchange 0 (.random r.1)).updLife fun l => { l with challenge := r.1 }

/-- A fresh vault with a new DUS and every counter 0 (R87, R91). (DEDUCED, log entry 36.) -/
def State.newVault (s : State) (seen : Lc) : State :=
  let r := s.drawBytes false 32
  (r.2.updVault fun _ => { Vault.zero with map := true, dus := some r.1, lcSeen := seen.code }).updLife fun l =>
    { l with vaultLost := false }

/-- Steps 3 and 4 of R94: what a transition into a state destroys and creates. (DEDUCED, log entry 36.) -/
def State.lifeVault (s : State) (aim : Lc) : State :=
  match aim with
  | .provision | .ret => s.newVault aim
  | .field =>
    s.updVault fun v =>
      { v with roots := v.pendRoots, pendRoots := .replicate 9 none, anchor := v.pendAnchor, pendAnchor := none
               sentry := .replicate 4 none, lcSeen := aim.code }
  | .scrap | .blank => s.updVault fun _ => { Vault.zero with lcSeen := aim.code }

/-- R91, R93: the transition is permitted. -/
def State.mayMove (s : State) (aim : Lc) : Bool :=
  match s.life.fuse, aim with
  | .blank, .provision | .field, .ret => true
  | .provision, .field => s.vault.pendRoots[0].isSome
  | f, .scrap => f != .scrap
  | _, _ => false

/-- R93: no instance other than 0 is ACTIVE or QUIESCING. -/
def State.quietInsts (s : State) : Bool :=
  allInst.all fun n => n == 0 || ((s.inst n).state != .active && (s.inst n).state != .quiescing)

/-- The transition needs no token of this kind, or LC_AUTH holds it. -/
def State.lcTokens (s : State) (aim : Lc) : Bool :=
  match aim with
  | .provision => s.tokenOk aim.code false
  | .ret => s.tokenOk aim.code false && s.ownerOk aim.code
  | _ => true

/-- The transition uses tokens (R91). -/
def Lc.needsToken (aim : Lc) : Bool := aim == .provision || aim == .ret

/-- An accepted transition (R94), up to the restart. (DEDUCED, log entry 36.) -/
def State.lcMove (s : State) (aim : Lc) : State :=
  let old := s.life.fuse
  let s := (s.eraseKeys 5).updLife fun l => l.burn aim
  let s := (s.lifeVault aim).logEvent 0x0003 0xFF [BitVec.ofNat 8 old.code, BitVec.ofNat 8 aim.code]
  s.dieReset.updLife fun l => { l with restart := true }

/-- AUTH_FAIL of a value whose failure has no event code in R394: the event is logged all the same (R346), under a code that the spec
does not state. (DESIGN CHOICE, log entry 4.) -/
def State.authFails (s : State) : WEnd :=
  let c := s.fresh 2
  (c.2.logEvent (ofLe c.1) 0xFF []).refuse .authFail

/-- LC_REQUEST. (DEDUCED, log entry 23; DEDUCED, log entry 36.) -/
def State.lcWrite (s : State) (w : Who) (b : Bytes) : WEnd :=
  match Lc.ofCode (byteAt b 0) with
  | none => s.refuse .range
  | some aim =>
    if !allZero (slice b 1 3) || le b 4 4 != 0x5C4A9D21 then s.refuse .range
    else if !(s.quietInsts && !s.life.debug && s.mayMove aim) then s.refuse .stateConflict
    else
      let t := if aim.needsToken then s.newChallenge else s
      if s.lcTokens aim then .silent (t.lcMove aim) else t.authFails

/-- R343: a session without the MANAGER role asks for SCRAP only. -/
def State.lcDenied (s : State) (w : Who) (b : Bytes) : Bool :=
  match w with
  | .session k => !s.isManager k && byteAt b 0 != Lc.scrap.code
  | _ => false

/-- From the first DEBUG_ENABLE the block acts as SOLO: bypassed, without cascade traffic (R480). (DEDUCED, log entry 33.) -/
def State.goSolo (s : State) : State :=
  ((s.each s.cas.fwdRun State.fwdLeave).updPins fun p => { p with casBypass := true }).updCas fun c =>
    { Cas.reset with member := c.member, prints := c.prints, trained := c.trained }

/-- A change of DEBUG_ENABLE takes effect (R96). -/
def State.setDebug (s : State) (on : Bool) : State :=
  let s := if on then s.goSolo else s
  let s := (s.eraseKeys 5).updLife fun l => { l with debug := on, debugSince := l.debugSince || on }
  ((s.updPins fun p => { p with dbgPermit := on }).logEvent 0x0004 0xFF [BitVec.ofNat 8 (flag on)]).serveWaiting

/-- DEBUG_ENABLE. (DEDUCED, log entry 23.) (DESIGN CHOICE, log entry 48.) -/
def State.debugWrite (s : State) (on : Bool) : WEnd :=
  if on = s.life.debug then .ended .ok s
  else if (on && (s.life.fuse == .field || s.life.fuse == .scrap))
      || allInst.any (fun n => n != 0 && (s.inst n).state == .active) then s.refuse .stateConflict
  else if on && s.life.fuse != .provision then
    let t := s.newChallenge
    if s.tokenOk s.life.fuse.code true then .ended .ok (t.setDebug true)
    else t.authFails
  else .ended .ok (s.setDebug on)

/-! ## Roots and anchors (R117, R122 to R125, R363) -/

/-- Root that a resolution in progress descends from. -/
def State.pathRoot (s : State) (j : Job) : Option Nat :=
  match s.pathParent j with
  | .ok (some p) => p.2.root
  | .ok none => some (pdRoot j.desc)
  | .error _ => none

/-- Where a job that has resolved a key of root c finds it from now on: the number it has in the list of emptied slots, and the slot
(R124). A key that has no slot yet stands under a number past every handle. -/
def State.keptKey (s : State) (c : Nat) (j : Job) : Option (Nat × Slot) :=
  match j.key, j.pend with
  | some i, _ => ((s.keys.slot i).filter (·.root == some c)).map fun x => (s.keys.handle i, x)
  | none, some k => if k.root = some c then some (2 ^ 32 + j.id, s.unplacedKey j.inst k) else none
  | none, none => none

/-- Jobs that have resolved a key of root c keep it, with what is left of its values and uses; a KEY_EVICT waits for the others of its slot
(R114, R124). -/
def State.keepKeys (s : State) (c : Nat) : State :=
  let kept := s.jobs.filterMap fun j => (s.keptKey c j).map fun p => (j, p)
  let s := s.updKeys fun k =>
    { k with gone := kept.foldl (fun l p => if l.any (·.1 == p.2.1) then l else l ++ [p.2]) k.gone }
  s.each kept fun s p =>
    s.updJob p.1.id fun k => { k with key := none, goneKey := some p.2.1, keyCopy := k.keyCopy.or (some p.2.2), pend := none }

/-- Everything that descends from root c goes (R115, R124). Jobs that have resolved their key keep it. -/
def State.dropRoot (s : State) (c : Nat) : State :=
  let s := ((s.staleResolving fun j => s.pathRoot j == some c).keepKeys c).emptySlots (fun x => x.root == some c) 5
  let s := (s.emptyEdge fun e => e.root == some c).updKeys fun k => { k with nodes := k.nodes.filter (·.root != c) }
  s.updVault fun v => { v with sentry := v.sentry.map fun x => x.filter fun y => y.root != c }

/-- The GCM key of a delivery package, from its decapsulated and agreed secrets (R122). -/
def deliveryKey (b ss x pub : Bytes) : Bytes := digest 0x38 32 (ss ++ x ++ slice b 64 1088 ++ slice b 32 32 ++ pub)

/-- The root that a package carries; none where it fails a check of R123. The enrolment key's two operations draw their blinding (R309). -/
def State.openDelivery (s : State) (b : Bytes) : Option Bytes × State :=
  let t := byteAt b 2
  match s.vault.anchor, s.enrolKey with
  | some a, some k =>
    let p := s.drawBytes false (blindLen 0x5A 32)
    let q := p.2.drawBytes false (blindLen 0x51 64)
    let x := x25519Blind p.1 (slice k 0 32) (slice b 32 32)
    let key := deliveryKey b (kemDecaps 0x51 q.1 (slice k 32 64) (slice b 64 1088)) x s.enrolPub
    (if s.life.fuse == .field && slice b 16 16 == fingerprint && decide (s.vault.seqs.toList.getD (t - 1) 0 < le b 8 8)
        && pairSigsOk a (b.take 1200) (slice b 1200 96) (slice b 1296 3309) && !allZero x
        && gcmTag key (zeros 12) [] (slice b 1152 32) == slice b 1184 16 then
      some (gcmCrypt key (zeros 12) (slice b 1152 32))
    else none, q.2)
  | _, _ => (none, s)

/-- The delivered root and its sequence number enter the vault in one update. -/
def Vault.deliver (v : Vault) (t : Nat) (root : Bytes) (seq : Nat) : Vault :=
  if h : t - 1 < 9 then { v with roots := v.roots.set (t - 1) (some root), seqs := v.seqs.set (t - 1) seq } else v

/-- ROOT_DELIVERY (R122 to R124). (DEDUCED, log entry 34.) -/
def State.deliverRoot (s : State) (b : Bytes) : WEnd :=
  let t := byteAt b 2
  s.ruled (le b 0 2 == 0x0101 && decide (1 ≤ t ∧ t ≤ 9) && allZero (slice b 3 5)) true fun _ =>
    let r := s.openDelivery b
    match r.1 with
    | none => (r.2.logEvent 0x0006 0xFF [BitVec.ofNat 8 t]).refuse .authFail
    | some root =>
      let s := (r.2.updVault fun v => v.deliver t root (le b 8 8)).dropRoot t
      .ended .ok (s.logEvent 0x0005 0xFF (toLe 1 t ++ slice b 8 7))

/-- ANCHOR_RESTORE's signatures and what they name (R125). -/
def State.restoreOk (s : State) (b : Bytes) : Bool :=
  slice b 2057 16 == fingerprint && slice b 2073 16 == s.life.challenge
    && slice b 2089 48 == digest 0x32 48 (slice b 8 2049)
    && sigsOk Config.tokenEc 0x4A Config.tokenPq (b.take 2144) (slice b 2144 96) (slice b 2240 4627)

/-- ANCHOR_RESTORE (R125). (DEDUCED, log entry 36.) -/
def State.restoreAnchor (s : State) (b : Bytes) : WEnd :=
  s.ruled (le b 0 2 == 0x0401 && byteAt b 2137 == Lc.field.code && allZero (slice b 2 6) && allZero (slice b 2138 6))
    s.vault.anchor.isNone fun _ =>
    let t := s.newChallenge
    if s.restoreOk b then
      let t := (t.updVault fun v => { v with anchor := some (slice b 8 2049) }).updLife fun l => { l with vaultLost := false }
      .ended .ok (t.logEvent 0x0007 0xFF [0xFF#8, 0#8])
    else (t.logEvent 0x0008 0xFF [0xFF#8]).refuse .authFail

/-- A package's fingerprint, SEQ and signatures (R363). (DESIGN CHOICE, log entry 48.) -/
def State.packageOk (s : State) (b : Bytes) : Bool :=
  slice b 16 16 == fingerprint && decide (((s.cfg.anchors.toList.getD (byteAt b 2) none).map (·.seq)).getD 0 < le b 8 8)
    && match s.vault.anchor with
      | some a => pairSigsOk a (b.take 2081) (slice b 2081 96) (slice b 2177 3309)
      | none => false

/-- ANCHOR_PKG (R363), in FIELD only. (DEDUCED, log entry 34.) -/
def State.packageWrite (s : State) (b : Bytes) : WEnd :=
  s.ruled (le b 0 2 == 0x0201 && decide (byteAt b 2 < 8) && decide (byteAt b 3 < 8) && allZero (slice b 4 4))
    (s.life.fuse == .field) fun _ =>
    if s.packageOk b then .commit [(.anchorPkg, b)] else (s.logEvent 0x0008 0xFF [BitVec.ofNat 8 (byteAt b 2)]).refuse .authFail

/-- WAKE_KEY (R383). (DEDUCED, log entry 23.) -/
def State.wakeKeyWrite (s : State) (k : Fin 4) (b : Bytes) : WEnd :=
  let c := byteAt b 0
  if c = 0xFF then s.effect (allZero (b.drop 1)) true fun _ => s.updVault fun v => { v with sentry := v.sentry.set k none }
  else
    s.ruled (decide (c ≤ 9) && allZero (slice b 1 3)) true fun _ =>
      match s.rootKey c with
      | none => s.refuse .stateConflict
      | some r =>
        let key := leafKey r (internalLabel 6 (b.drop 4)) none
        .ended .ok (s.updVault fun v => { v with sentry := v.sentry.set k (some ⟨key, c⟩) })

/-! ## Instances (R129 to R132, R152, R154, R156) -/

/-- COMMAND; another value is refused with RANGE. -/
def State.command (s : State) (n : Fin 128) (c : Nat) : EStatus × State :=
  match c with
  | 1 => s.create n
  | 2 => s.activate n
  | 3 => s.quiesce n
  | 4 => s.resetInst n
  | 5 => s.destroy n
  | 6 => s.reshare n
  | _ => (.range, s)

/-- What a moved slot carries (R155). (DESIGN CHOICE, log entry 30.) -/
def Slot.moved (i gen : Nat) (x : Slot) : MovedSlot :=
  { slot := i, gen := gen, usage := x.usage, ktype := x.ktype, csrc := x.csrc, cnum := x.cnum, fixed := x.fixed
    shareA := x.shareA, shareB := x.shareB, run := x.run, depth := x.depth, limit := x.limit, used := x.used, next := x.next
    stop := x.stop, first := x.first, last := x.last, root := x.root, test := x.test, sealedOnly := x.sealedOnly
    tlsSpent := x.tlsSpent, ownerLabel := x.ownerLabel }

/-- Pinned slots of an instance. -/
def State.pinnedOf (s : State) (n : Fin 128) : List (Nat × Slot) := s.keys.slots.filter fun p => p.2.owner == n && p.2.pinned

/-- Member m is enrolled and reachable, and neither block is cut off from its lead (R154). -/
def State.reaches (s : State) (m : Fin 4) : Bool :=
  s.cas.role != .cutOff && s.cas.peers[m].status == 2 && s.cas.peers[m].key.isSome && (s.sideFor m).isSome

/-- The install message of a move (R154, R155). -/
def State.moveBody (s : State) (n dst : Fin 128) : CasBody :=
  let l := s.pinnedOf n
  let nums := ((l.filter fun p => p.2.csrc == 2).map (·.2.cnum)).eraseDups
  .slotInstall n dst (s.inst n).live.slotBase (s.inst n).live.slotQuota (nums.map fun c => (c, s.vault.counter c))
    (l.map fun p => p.2.moved p.1 (s.keys.gen p.1))

/-- Start a slot move: PEL_RESULT reads 1. (DESIGN CHOICE, log entry 30.) -/
def State.startMove (s : State) (n : Fin 128) (m : Fin 4) (dst : Fin 128) : State :=
  (s.cascadeSend m (s.moveBody n dst)).updInst n fun i => { i with pelResult := 1, pelPeer := some ⟨m, dst, .sent⟩ }

/-- PEL_MOVE (R154). -/
def State.moveWrite (s : State) (n : Fin 128) (b : Bytes) : WEnd :=
  if h : byteAt b 0 < 4 ∧ byteAt b 1 < 128 then
    let m : Fin 4 := ⟨byteAt b 0, h.1⟩
    s.effect (allZero (b.drop 2))
      ((s.inst n).state == .configured && (s.inst n).quiesced && s.reaches m && (s.inst n).pelPeer.isNone)
      fun _ => s.startMove n m ⟨byteAt b 1, h.2⟩
  else s.refuse .range

/-- LOG_ENABLE: 0 to 1 makes bank 0 active and clears LOG_OVERFLOW (R136, R152). -/
def State.setLog (s : State) (n : Fin 128) (on : Bool) : State :=
  s.updInst n fun i =>
    if on && !i.logEnable then { i with logEnable := true, logBank := false, logOverflow := false } else { i with logEnable := on }

/-- Objects of an instance. (DESIGN CHOICE, log entry 49.) -/
def State.instWrite (s : State) (o : Obj) (b : Bytes) : WEnd :=
  let v := ofLe b
  match o with
  | .instCommand n => .of (s.command n v)
  | .instDesc n f => s.effect (descOk f b) true fun _ => s.updInst n fun i => { i with staged := i.staged.setField f b }
  | .logBase n => s.effect (addrOk v 64) (!(s.inst n).logEnable) fun _ => s.updInst n fun i => { i with logBase := BitVec.ofNat 64 v }
  | .logLow n => s.effect (addrOk v 4096) (!(s.inst n).logEnable) fun _ => s.updInst n fun i => { i with logLow := BitVec.ofNat 64 v }
  | .logPages n =>
    s.effect (v % 512 == 0 && decide (v ≤ 268435456)) (!(s.inst n).logEnable) fun _ => s.updInst n fun i => { i with logPages := v }
  | .logEnable n => s.effect true true fun _ => s.setLog n (v != 0)
  | .selfReset n => if v = 0 then .ended .ok s else .of (s.resetInst n)
  | .pelAccept n =>
    s.effect (decide (v < 4) || v == 0xFF) true fun _ => s.updInst n fun i => { i with pelAccept := v, pelResult := 0 }
  | .pelMove n => s.moveWrite n b
  | _ => s.refuse .readOnly

/-! ## Rings (R158 to R161, R230) -/

/-- The committed poll load with SQ g at cadence c stays within its limit. -/
def State.cadenceFits (s : State) (g : Fin 512) (c : Nat) : Bool :=
  match (s.sq g).owner with
  | some n => !((s.inst n).isTc && ((s.sq g).state == .enabled || (s.sq g).state == .deferred)) || decide (s.tcLoad g c ≤ 5000000)
  | none => true

/-- Objects of an SQ. -/
def State.sqWrite (s : State) (o : Obj) (b : Bytes) : WEnd :=
  let v := ofLe b
  let held (g : Fin 512) : Bool := (s.sq g).owner.isSome
  let off (g : Fin 512) : Bool := held g && (s.sq g).state == .disabled
  match o with
  | .sqEnable g => .of (if v = 0 then s.disableSq g else s.enableSq g)
  | .sqBaseAddr g =>
    s.effect (addrOk v 4096 && decide (v + (s.sq g).size * 32 ≤ 2 ^ 52)) (off g) fun _ => s.updSq g fun q => { q with base := v }
  | .sqSize g =>
    s.effect (powerIn v 64 65536 && decide ((s.sq g).base + v * 32 ≤ 2 ^ 52)) (off g) fun _ =>
      s.updSq g fun q => { q with size := v }
  | .sqWbAddr g => s.effect (addrOk v 64) (off g) fun _ => s.updSq g fun q => { q with wbAddr := v }
  | .sqCq g =>
    s.effect (match (s.sq g).owner with
      | some n => decide (v < (s.inst n).live.cqCount)
      | none => decide (v < 8)) (off g) fun _ => s.updSq g fun q => { q with cq := v }
  | .sqCadence g =>
    s.effect (decide (200 ≤ v ∧ v ≤ 1000000) && s.cadenceFits g v) (held g) fun _ => s.updSq g fun q => { q with cadence := v }
  | .sqConsumed g => s.effect true (off g) fun _ => s.updSq g fun q => { q with consumed := BitVec.ofNat 32 v }
  | _ => s.refuse .readOnly

/-- Objects of a CQ. -/
def State.cqWrite (s : State) (o : Obj) (b : Bytes) : WEnd :=
  let v := ofLe b
  let held (q : Fin 256) : Bool := (s.cq q).owner.isSome
  let off (q : Fin 256) : Bool := held q && !(s.cq q).enabled
  match o with
  | .cqEnable q => .of (if v = 0 then s.disableCq q else s.enableCq q)
  | .cqBaseAddr q =>
    s.effect (addrOk v 64 && decide (v + (s.cq q).size * 16 ≤ 2 ^ 52)) (off q) fun _ => s.updCq q fun c => { c with base := v }
  | .cqSize q =>
    s.effect (powerIn v 64 65536 && decide ((s.cq q).base + v * 16 ≤ 2 ^ 52)) (off q) fun _ =>
      s.updCq q fun c => { c with size := v }
  | .cqTail q => s.effect true (off q) fun _ => s.updCq q fun c => { c with tail := BitVec.ofNat 32 v }
  | .cqVector q => s.effect (decide (v ≤ 7)) (held q) fun _ => s.updCq q fun c => { c with vector := v }
  | .cqIrqMode q => s.effect (decide (v ≤ 1)) (held q) fun _ => s.updCq q fun c => { c with irqMode := v }
  | .cqIrqCount q => s.effect (decide (1 ≤ v ∧ v ≤ 4096)) (held q) fun _ => s.updCq q fun c => { c with irqCount := v }
  | .cqIrqDelay q => s.effect (decide (v ≤ 1000000)) (held q) fun _ => s.updCq q fun c => { c with irqDelay := v }
  | _ => s.refuse .readOnly

/-! ## Time class, region table, edge (R229, R230, R272, R336) -/

/-- Poll load of the enabled TC SQs and n windows at a shortest cycle c. -/
def State.loadWith (s : State) (n c : Nat) : Rat := (allSq.map s.sqLoad).sum + (n : Rat) * (10 ^ 9 / (c : Rat))

/-- Enabled windows. -/
def State.windowsOn (s : State) : Nat := (s.cfg.windows.toList.filter (·.on)).length

def State.setWin (s : State) (w : Fin 64) (f : Win → Win) : State :=
  s.updCfg fun c => { c with windows := c.windows.set w (f c.windows[w]) }

/-- WIN_SQ names an SQ of a TC instance, or none (R229, R230). -/
def State.winSqOk (s : State) (v : Nat) : Bool :=
  v == 0xFFFF || if h : v < 512 then
    match (s.sq ⟨v, h⟩).owner with
    | some n => (s.inst n).isTc
    | none => false
  else false

/-- Objects of the time class. -/
def State.tcWrite (s : State) (o : Obj) (b : Bytes) : WEnd :=
  let v := ofLe b
  match o with
  | .tcCycleMin =>
    s.effect (decide (10000 ≤ v ∧ v ≤ 10000000) && s.cfg.windows.toList.all (fun w => !w.on || decide (w.offset < v))
        && decide (s.loadWith s.windowsOn v ≤ 5000000)) true fun _ => s.updCfg fun c => { c with tcCycleMin := v }
  | .winSq w => s.effect (s.winSqOk v) (!s.cfg.windows[w].on) fun _ => s.setWin w fun x => { x with sq := v }
  | .winOffset w =>
    s.effect (decide (v < s.cfg.tcCycleMin)) (!s.cfg.windows[w].on) fun _ => s.setWin w fun x => { x with offset := v }
  | .winEnable w =>
    s.effect (v == 0 || s.cfg.windows[w].on || decide (s.loadWith (s.windowsOn + 1) s.cfg.tcCycleMin ≤ 5000000)) true fun _ =>
      s.setWin w fun x => { x with on := v != 0 }
  | _ => s.refuse .readOnly

/-- Entry i of an RT_LOAD value. -/
def loadEntry (b : Bytes) (i : Nat) : RtEntry :=
  ⟨BitVec.ofNat 64 (le b (8 + 32 * i) 8), BitVec.ofNat 64 (le b (16 + 32 * i) 8), BitVec.ofNat 64 (le b (24 + 32 * i) 8)⟩

/-- R336: an entry without Res0 or BAD bits, and with good geometry where EN is 1. -/
def loadEntryOk (b : Bytes) (i : Nat) : Bool :=
  let e := loadEntry b i
  e.addr &&& ~~~rtAddrMask == 0#64 && e.attr &&& ~~~rtAttrMask == 0#64 && allZero (slice b (32 + 32 * i) 8)
    && (!e.en || goodGeometry e.addr e.attr)

/-- RT_LOAD (R336). -/
def State.rtLoad (s : State) (b : Bytes) : WEnd :=
  let first := le b 0 2
  let n := le b 2 2
  if b.length ≠ 8 + 32 * n then s.refuse .typeLength
  else
    s.effect (1 ≤ n && decide (first + n ≤ 1024) && allZero (slice b 4 4) && (List.range n).all (loadEntryOk b)) true fun _ =>
      s.updRt fun r =>
        { r with entries := r.entries.mapIdx fun i e => if first ≤ i ∧ i < first + n then loadEntry b (i - first) else e }

/-- Owner byte of channel c in a CHAN_OWNER value. -/
def chanByte (b : Bytes) (c : Nat) : Option (Fin 128) := if h : byteAt b c < 128 then some ⟨byteAt b c, h⟩ else none

/-- CHAN_OWNER (R272). -/
def State.chanWrite (s : State) (b : Bytes) : WEnd :=
  s.effect (b.all fun x => decide (x.toNat < 128) || x == 0xFF#8)
    ((List.finRange 96).all fun c => chanByte b c.val == s.cfg.chanOwner[c]
      || s.edge.table.all fun p => p.2.chan != c.val || some p.2.owner == chanByte b c.val)
    fun _ => s.updCfg fun x => { x with chanOwner := x.chanOwner.mapIdx fun i _ => chanByte b i }

/-- EDGE_LOAD: the key and the channel are the caller's (R273), and only an instance mailbox speaks for an instance. -/
def State.edgeLoadBy (s : State) (w : Who) (b : Bytes) : WEnd :=
  match w with
  | .inst n => .of (s.edgeLoad n b)
  | _ => if loadOk b then s.refuse .accessDenied else s.refuse .range

def State.edgeFreeBy (s : State) (w : Who) (k : Nat) : WEnd :=
  .of (s.edgeFree (match w with
    | .inst n => some n
    | _ => none) k)

/-! ## The rest -/

/-- REC_APPEND (R378, R415). -/
def State.appendWrite (s : State) (b : Bytes) : WEnd :=
  if b.isEmpty then s.refuse .typeLength
  else
    s.ruled (s.vault.cardCounters[s.cfg.recCounter].toNat != allOnes64) (s.card.state == .ready) fun _ =>
      match s.cardKey with
      | some key => .append key b
      | none => s.refuse .stateConflict

/-- Engine named by a FAULT_INJECT kind and unit (R387). -/
def injectEngine (kind unit : Nat) : Option (Fin 36) :=
  match kind with
  | 1 => engNo .ce unit
  | 2 => engNo .de unit
  | 3 => engNo .lf unit
  | 4 => engNo .el unit
  | _ => none

/-- Inject one fault; none where kind or unit is out of range. A single-bit error in a crossing FIFO is corrected and counted; a
double-bit error poisons the next word, at once where the model does not show the FIFO's words (R34, R447, R456).
(DEDUCED, log entry 21.) -/
def State.inject (s : State) (kind unit : Nat) : Option State :=
  match injectEngine kind unit with
  | some e => some (s.updEng e fun g => { g with inject := true })
  | none =>
    if kind = 5 ∧ unit < 384 then some (s.count (0x2400 + unit) 2)
    else if kind = 6 ∧ unit < 384 then
      some (if fifoShown unit then s.updFlt fun f => { f with fifo := f.fifo ++ [unit] } else s.fifoPoison unit)
    else if h : kind = 7 ∧ unit < 2 then
      some (if s.flt.tandems[unit].inService then s.mismatch ⟨unit, h.2⟩ else s)
    else none

/-- FAULT_INJECT. (DEDUCED, log entry 21.) -/
def State.injectWrite (s : State) (b : Bytes) : WEnd :=
  if !(byteAt b 1 == 0 && allZero (slice b 4 4)) then s.refuse .range
  else
    match s.inject (byteAt b 0) (le b 2 2) with
    | none => s.refuse .range
    | some t => if s.life.debug then .ended .ok t else s.refuse .stateConflict

/-- SESSION_CLOSE: a number that names no session changes nothing. -/
def State.closeNumber (s : State) (v : Nat) : State :=
  s.each ((List.finRange 8).filter fun k => (s.eoa.sessions[k]).any fun x => x.number == v) fun s k => s.closeSession k

/-- Objects of keys, life cycle and the rest. -/
def State.otherWrite (s : State) (w : Who) (o : Obj) (b : Bytes) : WEnd :=
  let v := ofLe b
  match o with
  | .lcRequest => s.lcWrite w b
  | .lcAuth => .ended .ok (s.updLife fun l => { l with auth := b })
  | .debugEnable => s.debugWrite (v != 0)
  | .tmpClear => .of (s.tmpClear (BitVec.ofNat 8 v))
  | .vcounter k => s.effect (decide (s.vault.counters[k].toNat ≤ v)) true fun _ => s.setCounter (k.val + 1) v
  | .rootClear k => .ended .ok (s.updVault fun x => { x with pendRoots := x.pendRoots.set k (some b) })
  | .ownerAnchor => .ended .ok (s.updVault fun x => { x with pendAnchor := some b })
  | .rootDelivery => s.deliverRoot b
  | .recoveryAttest => .ended .ok (s.attest b)
  | .anchorRestore => s.restoreAnchor b
  | .hostMeasure => s.effect true s.life.hostMeasure.isNone fun _ => s.updLife fun l => { l with hostMeasure := some b }
  | .rtLoad => s.rtLoad b
  | .chanOwner => s.chanWrite b
  | .edgeLoad => s.edgeLoadBy w b
  | .edgeFree => s.edgeFreeBy w v
  | .recCounter => if h : 1 ≤ v ∧ v ≤ 16 then .ended .ok (s.updCfg fun c => { c with recCounter := ⟨v - 1, by omega⟩ }) else s.refuse .range
  | .recAppend => s.appendWrite b
  | .jnlCompact =>
    if v = 0 then .ended .ok s
    else s.effect true (s.jnl.state == .ready) fun _ => s.updJnl fun j => { j with state := .compacting }
  | .updAbandon => if v = 0 ∨ s.jnl.updState = .idle then .ended .ok s else .commit [(.updState, [0#8])]
  | .wakeKey k => s.wakeKeyWrite k b
  | .faultInject => s.injectWrite b
  | .anchorPkg => s.packageWrite b
  | .sessionClose => .ended .ok (s.closeNumber v)
  | _ => s.refuse .readOnly

/-- Steps 6 to 9 of R345 for a write of b to o by w, the values of its type already checked for length (R342). -/
def State.writeObj (s : State) (w : Who) (o : Obj) (b : Bytes) : WEnd :=
  if o.type = .bool ∧ 1 < ofLe b then s.refuse .range
  else if o = .blockCert ∧ b.length ≠ 0 ∧ b.length ≠ 5494 then s.refuse .typeLength
  else
    match o with
    | .instDesc n _ => if n = 0 then s.persistWrite o b else s.instWrite o b
    | .instCommand _ | .logBase _ | .logLow _ | .logPages _ | .logEnable _ | .selfReset _ | .pelAccept _ | .pelMove _ =>
      s.instWrite o b
    | .sqEnable _ | .sqBaseAddr _ | .sqSize _ | .sqWbAddr _ | .sqCq _ | .sqCadence _ | .sqConsumed _ => s.sqWrite o b
    | .cqEnable _ | .cqBaseAddr _ | .cqSize _ | .cqTail _ | .cqVector _ | .cqIrqMode _ | .cqIrqCount _ | .cqIrqDelay _ =>
      s.cqWrite o b
    | .tcCycleMin | .winSq _ | .winOffset _ | .winEnable _ => s.tcWrite o b
    | _ => if o.persistence = .persist then s.persistWrite o b else s.otherWrite w o b

/-! ## What else an applied PERSIST value does -/

/-- Close the sessions of an anchor that is replaced or removed (R363, R368). -/
def State.closeAnchor (s : State) (k : Nat) : State :=
  s.each ((List.finRange 8).filter fun i => (s.eoa.sessions[i]).any fun x => x.anchor == some k) fun s i => s.closeSession i

/-- A PERSIST value takes effect live, and with it what its object's rules add (R363, R410, R426, R439). -/
def State.takeEffect (s : State) (o : Obj) (b : Bytes) : State :=
  let t := s.applyValue o b
  match o with
  | .s1Enable => if s.cfg.s1Enable = t.cfg.s1Enable then t else t.enableCard t.cfg.s1Enable
  | .jnlDayLimit => t.budgetState
  | .svnFloor => if s.cfg.svnFloor < t.cfg.svnFloor then (t.writeHalf0).logEvent 0x0042 0xFF (b.take 4) else t
  | .edgeEnable => t.serveEdge
  | .fwdEnable | .fwdEngines => t.serveWaiting
  | .anchorClear => t.closeAnchor (byteAt b 0)
  | .anchorPkg => (t.logEvent 0x0007 0xFF [BitVec.ofNat 8 (byteAt b 2), BitVec.ofNat 8 (byteAt b 3)]).closeAnchor (byteAt b 2)
  | _ => t

end Sys2Proof.Machine
end

