-- ==== Sys2Proof/Machine/Dictionary.lean ====
section
/-! DEFINITION. The dictionary service (R343 to R355, R422, R436): how requests are taken from mailboxes and sessions,
checked, served one at a time, and answered; transfers, batches and journal commits. -/

namespace Sys2Proof

/-- Objects whose writes need an engine, for signatures or keys (R359). -/
def Machine.Obj.needsEngine : Machine.Obj → Bool
  | .rootDelivery | .anchorPkg | .anchorRestore | .recoveryAttest | .blockCert | .lcRequest | .debugEnable => true
  | _ => false

end Sys2Proof

namespace Sys2Proof.Machine

/-! ## Answers -/

/-- An answer: status, data, whether segments remain, ARG of R358, and MB_XFER's fields (R350). -/
structure Ans where
  st    : EStatus
  data  : Bytes
  more  : Bool
  arg   : Nat
  total : Option Nat
  bytes : Option Nat
  deriving DecidableEq, Repr

/-- An answer without data, which leaves MB_XFER as it is. -/
def Ans.plain (st : EStatus) : Ans := ⟨st, [], false, 0, none, none⟩

/-- How an operation ends: answered; a commit to start, of values or of an update segment; an append; or silent. -/
inductive DEnd where
  | done (a : Ans) (s : State)
  | commit (writes : List (Obj × Bytes)) (segment : Option Nat) (arg : Nat) (s : State)
  | append (key payload : Bytes) (arg : Nat) (s : State)
  | silent (s : State)
  deriving DecidableEq, Repr

def State.fail (s : State) (st : EStatus) : DEnd := .done (Ans.plain st) s

/-- The rest of a checked write, answered with ARG `arg`. -/
def WEnd.toEnd (s : State) (arg : Nat) : WEnd → DEnd
  | .ended st t => .done { Ans.plain st with arg := arg, bytes := if arg = 0 then none else some arg } t
  | .commit l => .commit l none arg s
  | .append k p => .append k p arg s
  | .silent t => .silent t

/-! ## Checks that come first (R345 steps 1 to 5) -/

/-- Steps 3 and 4 for a write. (DESIGN CHOICE, log entry 51.) -/
def State.writeDenied (s : State) (w : Who) (o : Obj) : Option EStatus :=
  if o.access = .ro then some .readOnly else if !s.admits w o then some .accessDenied else none

/-- Step 4 for a read. -/
def State.readDenied (s : State) (w : Who) (o : Obj) : Option EStatus :=
  if o.access = .wo ∨ !s.admits w o then some .accessDenied else none

/-- Objects that the manager mailbox serves in ROM mode (R433). -/
def Obj.inRom : Obj → Bool
  | .highest i _ => i ∈ [0x1000, 0x1010, 0x1B00, 0x1B10, 0x1B20, 0x1B21, 0x1B30, 0x3000]
  | .ident | .fingerprint | .vendor | .product | .dieSerial | .lcState | .lcRequest | .lcAuth | .debugEnable | .lcChallenge
  | .updState | .runImage | .svnFloor | .bootResult | .updAtWake | .updBegin | .updSegment | .updBitmap | .updReceived
  | .updAbandon | .evtLog | .evtSeq => true
  | _ => false

/-- The object of a request. -/
def DReq.obj : DReq → Option Obj
  | .bad _ | .abort => none
  | .read o | .write o _ | .value o _ | .segWrite o _ _ _ _ | .segRead o _ _ => some o
  | .res r => r.obj

/-! ## Transfers (R351, R352) -/

/-- Change the mailbox of a requester. -/
def Dict.updBox (d : Dict) (w : Who) (f : Mailbox → Mailbox) : Dict :=
  match w with
  | .mgr => { d with mgrBox := f d.mgrBox }
  | .inst n => { d with boxes := d.boxes.set n (f d.boxes[n]) }
  | .session _ => d

/-- The mailbox of a requester. -/
def Dict.box (d : Dict) : Who → Option Mailbox
  | .mgr => some d.mgrBox
  | .inst n => some d.boxes[n]
  | .session _ => none

/-- Abandon what requester w has open; DONE_BYTES then counts nothing (R350). -/
def State.dropOpen (s : State) (w : Who) : State :=
  (s.updDict fun d =>
    { d.updBox w fun m => { m with doneBytes := 0 } with transfers := d.transfers.filter (·.who != w) }).updJnl fun j =>
      { j with updOpen := j.updOpen.filter fun u => u.1 != w }

/-- The transfer of w. -/
def State.transfer (s : State) (w : Who) : Option Transfer := s.dict.transfers.find? (·.who == w)

def State.setTransfer (s : State) (t : Transfer) : State :=
  s.updDict fun d => { d with transfers := t :: d.transfers.filter (·.who != t.who) }

/-- TOTAL suits the object at FIRST (R351). -/
def Obj.totalOk (o : Obj) (total : Nat) : Bool :=
  match o.type with
  | .domain lim fixed => if fixed || o == .blockCert then total == lim else decide (total ≤ lim)
  | _ => false

/-- FIRST of a staged write transfer: what refuses it (R351, R352), w's own transfers left aside. -/
def State.openRefused (s : State) (w : Who) (o : Obj) (total : Nat) : Option EStatus :=
  let others := s.dict.transfers.filter fun t => t.who != w && t.write
  if !o.totalOk total then some .typeLength
  else if 32776 < total then some .range
  else if others.any (·.obj == o) || decide (2 ≤ others.length) then some .stateConflict
  else none

/-- The offset that a later segment states is the count reached; a mailbox implies it. -/
def atOffset (w : Who) (arg count : Nat) : Bool :=
  match w with
  | .session _ => arg == count
  | _ => true

/-- Bytes join a staged transfer; at LAST the object takes the value. (DEDUCED, log entry 23.) -/
def State.addSegment (s : State) (w : Who) (t : Transfer) (last : Bool) (data : Bytes) : DEnd :=
  let all := t.data ++ data
  if t.total < all.length ∨ (last ∧ all.length ≠ t.total) then (s.dropOpen w).fail .typeLength
  else if last then
    let s := s.dropOpen w
    (s.writeObj w t.obj all).toEnd s all.length
  else .done ⟨.ok, [], false, all.length, none, some all.length⟩ (s.setTransfer { t with data := all })

/-- SEG_WRITE to an object other than a streaming one. -/
def State.segWrite (s : State) (w : Who) (o : Obj) (first last : Bool) (arg : Nat) (data : Bytes) : DEnd :=
  if first then
    let s := s.dropOpen w
    match s.openRefused w o arg with
    | some st => s.fail st
    | none => s.addSegment w ⟨w, o, true, arg, [], 0⟩ last data
  else
    match s.transfer w with
    | some t =>
      if t.write ∧ t.obj = o ∧ atOffset w arg t.data.length then s.addSegment w t last data
      else (s.dropOpen w).fail .segSequence
    | none => (s.dropOpen w).fail .segSequence

/-- Serve the next bytes of a snapshot, at most `cap` of them. -/
def State.serveSnapshot (s : State) (t : Transfer) (first : Bool) (cap : Nat) : DEnd :=
  let data := slice t.data t.pos cap
  let pos := t.pos + data.length
  let more := decide (pos < t.data.length)
  let s := if more then s.setTransfer { t with pos := pos } else s.dropOpen t.who
  .done ⟨.ok, data, more, t.data.length, if first then some t.data.length else none, some pos⟩ s

/-- SEG_READ. -/
def State.segRead (s : State) (w : Who) (o : Obj) (first : Bool) (arg cap : Nat) : DEnd :=
  if first then
    let s := s.dropOpen w
    if atOffset w arg 0 then s.serveSnapshot ⟨w, o, false, (s.valueOf o).length, s.valueOf o, 0⟩ true cap
    else s.fail .segSequence
  else
    match s.transfer w with
    | some t =>
      if !t.write ∧ t.obj = o ∧ atOffset w arg t.pos then s.serveSnapshot t false cap else (s.dropOpen w).fail .segSequence
    | none => (s.dropOpen w).fail .segSequence

/-! ## Update segments (R381, R436, R437) -/

/-- Expected bytes of segment n. -/
def Jnl.segLen (j : Jnl) (n : Nat) : Nat := min j.updSeg (j.updLen - n * j.updSeg)

/-- Bytes reach the streaming transfer u; those of a segment not yet stored go to staging as they arrive. -/
def State.streamSegment (s : State) (w : Who) (total : Nat) (old data : Bytes) (last : Bool) : DEnd :=
  let all := old ++ data
  let n := le all 0 4
  let gone := s.dropOpen w
  let stored := s.jnl.updMap.contains n
  let fresh := if stored then 0 else (all.length - 8) - (old.length - 8)
  if total < all.length ∨ (last ∧ (all.length ≠ total ∨ all.length < 8)) then gone.fail .typeLength
  else if !allZero (slice all 4 4) ∨ (4 ≤ all.length ∧ s.jnl.segCount ≤ n) then gone.fail .range
  else if last ∧ all.length - 8 ≠ s.jnl.segLen n then gone.fail .typeLength
  else if fresh ≠ 0 ∧ !s.ordinaryFits fresh then (gone.persistFailed 0x1B20 1).fail .persistFail
  else
    let s := if fresh = 0 then s else (s.spend fresh).s0Send (writeCmds (stagingAt n s.jnl.updSeg + (old.length - 8)) fresh)
    let ok : Ans := ⟨.ok, [], false, all.length, none, some all.length⟩
    if !last then .done ok (s.updJnl fun j => { j with updOpen := some (w, total, all) })
    else
      let s := s.updJnl fun j => { j with updOpen := none }
      if stored then .done ok s
      else
        let s := s.s0Begun (.segment n ((s.jnl.staging.lookup n).getD []))
        .commit [] (some n) all.length (s.updJnl fun j => { j with staging := assocSet j.staging n (all.drop 8) })

/-- SEG_WRITE to UPD_SEGMENT (R372). -/
def State.stream (s : State) (w : Who) (first last : Bool) (arg : Nat) (data : Bytes) : DEnd :=
  let s := if first then s.dropOpen w else s
  if first then
    if 65544 < arg then s.fail .typeLength
    else if s.jnl.updOpen.isSome then s.fail .stateConflict
    else if s.jnl.state != .ready && s.jnl.state != .compacting then (s.persistFailed 0x1B20 1).fail .persistFail
    else s.streamSegment w arg [] data last
  else
    match s.jnl.updOpen with
    | some (v, total, old) =>
      if v = w ∧ atOffset w arg old.length then
        if s.jnl.state != .ready && s.jnl.state != .compacting then ((s.dropOpen w).persistFailed 0x1B20 1).fail .persistFail
        else s.streamSegment w total old data last
      else (s.dropOpen w).fail .segSequence
    | none => (s.dropOpen w).fail .segSequence

/-! ## One operation -/

/-- Step 5 for a WRITE: no DOMAIN, and the type's length (R342). -/
def Obj.lengthOk (o : Obj) (n : Nat) : Bool :=
  match o.type with
  | .bool => n == 1
  | .uint k => n == k
  | .octets k | .record k => n == k
  | .string => decide (n ≤ 255)
  | .domain _ _ => false

/-- Steps 1 to 4 of R345 for one operation of w. -/
def State.denied (s : State) (w : Who) : DReq → Option EStatus
  | .bad st => some st
  | .read o | .segRead o _ _ => s.readDenied w o
  | .write o b => (s.writeDenied w o).or (if o = .lcRequest ∧ s.lcDenied w b = true then some .accessDenied else none)
  | .value o _ | .segWrite o _ _ _ _ => s.writeDenied w o
  | .abort => none
  | .res r => s.denied w r

/-- TOTAL of a FIRST suits the object (R352, R380). -/
def Obj.firstOk (o : Obj) (total : Nat) : Bool := if o = .updSegment then decide (total ≤ 65544) else o.totalOk total

/-- Step 5: the length or the kind of the operation does not suit the type, or the value read has no room. -/
def State.unfit (s : State) (cap : Nat) : DReq → Bool
  | .read o => o.isDomain || decide (cap < (s.valueOf o).length)
  | .write o b => !o.lengthOk b.length
  | .segWrite o first _ arg _ => !o.isDomain || (first && !o.firstOk arg)
  | .value o _ | .segRead o _ _ => !o.isDomain
  | .res r => s.unfit cap r
  | .bad _ | .abort => false

/-- A whole DOMAIN value, as its transfer brings it at LAST (R351, R352). -/
def State.giveValue (s : State) (w : Who) (o : Obj) (b : Bytes) : DEnd :=
  let s := s.dropOpen w
  match s.openRefused w o b.length with
  | some st => s.fail st
  | none => (s.writeObj w o b).toEnd s b.length

/-- Steps 6 to 9 of an operation that has passed steps 1 to 5. -/
def State.act (s : State) (w : Who) (r : DReq) (cap : Nat) : DEnd :=
  match r with
  | .bad st => s.fail st
  | .res _ => s.fail .range
  | .read o => .done { Ans.plain .ok with data := s.valueOf o } s
  | .write o b => (s.writeObj w o b).toEnd s 0
  | .value o b => s.giveValue w o b
  | .segWrite o first last arg b => if o = .updSegment then s.stream w first last arg b else s.segWrite w o first last arg b
  | .segRead o first arg => s.segRead w o first arg cap
  | .abort => .done (Ans.plain .ok) (s.dropOpen w)

/-- R345 for one operation of w (TYPE_LENGTH abandons its open transfer, R346), with room for `cap` bytes of data in its answer. (DEDUCED, log entry 23.) -/
def State.perform (s : State) (w : Who) (r : DReq) (cap : Nat) : DEnd :=
  match s.denied w r with
  | some st => s.fail st
  | none => if s.unfit cap r then (s.dropOpen w).fail .typeLength else s.act w r cap

/-- Bytes that an answer to w may hold outside a batch (R347, R358). (DEDUCED, log entry 23.) -/
def roomOf : Who → Nat
  | .mgr => 2048
  | .inst _ => 128
  | .session _ => 1448

/-- What the power state and ROM mode refuse before an operation (R433, R469). -/
def State.withheld (s : State) (r : DReq) : Bool :=
  s.pwr.prep.isSome || (s.pwr.boot == .romMode && r.obj.any fun o => !o.inRom)

/-- One operation, as the service runs it. -/
def State.operate (s : State) (w : Who) (r : DReq) (cap : Nat) : DEnd :=
  match r with
  | .bad st => s.fail st
  | _ => if s.withheld r then s.fail .stateConflict else s.perform w r cap

/-! ## Answering -/

/-- The answer in a mailbox (R349, R350). -/
def Mailbox.answer (m : Mailbox) (a : Ans) : Mailbox :=
  { busy := false, done := true, more := a.more, status := a.st.code, rlen := a.data.length
    total := a.total.getD m.total, doneBytes := a.bytes.getD m.doneBytes, buffer := a.data ++ m.buffer.drop a.data.length }

/-- Record the answer of a batch's operation in process. -/
def Batch.answer (b : Batch) (a : Ans) : Batch :=
  match b.rest with
  | [] => b
  | o :: rest =>
    let lastSeg := match o.req with
      | .segRead _ _ _ => a.st == .ok && !a.more
      | _ => false
    { b with rest := rest, done := b.done ++ [⟨a.st, o.index, o.sub, lastSeg, a.arg, a.data⟩] }

/-- The answer reaches w: its mailbox, or the batch of its session. (DEDUCED, log entry 23.) -/
def State.answer (s : State) (w : Who) (a : Ans) : State :=
  s.updDict fun d =>
    let d := { d with last := a.st, readout := a.data }
    match w with
    | .session k => { d with batch := d.batch.map fun b => if b.k = k then b.answer a else b }
    | _ => d.updBox w fun m => m.answer a

/-- One record of a RESPONSE (R358). -/
def OpRec.bytes (r : OpRec) : Bytes :=
  toLe 2 r.status.code ++ toLe 1 r.sub ++ toLe 1 (if r.last then 2 else 0) ++ toLe 2 r.index ++ toLe 2 r.data.length
    ++ toLe 4 r.arg ++ r.data

/-- Body of a RESPONSE (R358). -/
def responseBody (count : Nat) (atomic : Bool) (st : EStatus) (failAt : Nat) (l : List OpRec) : Bytes :=
  toLe 1 count ++ boolBytes atomic ++ toLe 2 st.code ++ toLe 1 failAt ++ zeros 3 ++ (l.map OpRec.bytes).flatten

/-- Send a response to a request of session number `num`, where that is still open, and keep it (R368). -/
def State.respond (s : State) (k : Fin 8) (num seq : Nat) (body : Bytes) : State :=
  match s.eoa.sessions[k] with
  | none => s
  | some x =>
    if x.number = num then
      let p := x.protect 0x11 seq body
      (s.updEoa fun e => { e with sessions := e.sessions.set k (some { x with stored := some p, inProcess := false }) }).sendPdu
        x.via x.port p
    else s

/-- The batch is over. -/
def State.endBatch (s : State) (b : Batch) (st : EStatus) (failAt : Nat) : State :=
  (s.updDict fun d => { d with batch := none, last := st }).respond b.k b.num b.seq
    (responseBody b.count b.atomic st failAt (if b.atomic then [] else b.done))

/-! ## Commits (R422, R427) -/

/-- Records of a commit. -/
def commitRecs (l : List (Obj × Bytes)) (segment : Option Nat) : List JRec :=
  match segment with
  | some n => [.segment n]
  | none => l.map fun p => .value p.1 p.2

/-- The journal may start a group of these records (R426, R427). -/
def State.mayCommit (s : State) (recs : List JRec) : Bool := !s.jnlStopped && s.ordinaryFits (recBytes recs)

/-- A commit that failed or could not start, logged for its first object. -/
def State.commitFailed (s : State) (l : List (Obj × Bytes)) : State :=
  let p := (l.head?.map fun x => x.1.place).getD (0x1B20, 1)
  s.persistFailed p.1 p.2

/-- The number of a batch's first operation among those that write these values (R355, R358). -/
def Batch.firstOf (b : Batch) (l : List (Obj × Bytes)) : Nat := (b.rest.findIdx? fun o => o.req.obj == l.head?.map (·.1)).getD 0

/-- A single operation that committed is answered, with ARG. -/
def State.answerCommit (s : State) (c : Commit) (st : EStatus) : State :=
  match c.who with
  | some w => s.answer w { Ans.plain st with arg := c.arg, bytes := if c.arg = 0 then none else some c.arg }
  | none => s

/-- The commit fails, or may not start: its request, or its batch, ends with PERSIST_FAIL (R422, R427). -/
def State.refuseCommit (s : State) (c : Commit) : State :=
  let s := (s.updDict fun d => { d with commit := none }).commitFailed c.writes
  match c.batch with
  | some b => s.endBatch b .persistFail (b.firstOf c.writes)
  | none => s.answerCommit c .persistFail

/-- The commit in process starts its group, where the journal is free: it waits for a group of the block's own to end, and for slot 0
after an abandoned power-down (R82). (DEDUCED, log entry 29.) -/
def State.goCommit (s : State) : State :=
  match s.dict.commit with
  | some c =>
    let l := commitRecs c.writes c.segment
    if c.started || s.jnl.inFlight.isSome || s.jnl.s0Waits then s
    else if s.mayCommit l then (s.sendGroup l false).updDict fun d => { d with commit := some { c with started := true } }
    else s.refuseCommit c
  | none => s

/-- Take up the commit of an operation of w, or of an atomic batch. -/
def State.startCommit (s : State) (w : Who) (l : List (Obj × Bytes)) (batch : Option Batch) (segment : Option Nat) (arg : Nat) : State :=
  (s.updDict fun d => { d with commit := some ⟨some w, l, batch, segment, arg, false⟩ }).goCommit

/-- An operation of w has ended its checks. -/
def State.settle (s : State) (w : Who) : DEnd → State
  | .done a t => t.answer w a
  | .commit l segment arg t => t.startCommit w l none segment arg
  | .append key payload _ t => (t.startAppend key payload).updDict fun d => { d with appendBy := some w }
  | .silent t => t

/-! ## Atomic batches (R355) -/

/-- The conditions of R355: writes to objects that are no DOMAIN, one action at most, and that last. -/
def Batch.wellMade (b : Batch) : Bool :=
  (b.rest.all fun o => o.write && o.req.obj.all fun x => !x.isDomain)
    && b.rest.dropLast.all fun o => o.req.obj.all fun x => !x.isAction

/-- Where a trial of an atomic batch stands: the state as the operations so far leave it, and the PERSIST values. -/
structure Trial where
  state  : State
  writes : List (Obj × Bytes)
  silent : Bool

/-- Run the operations one after the other; the first failure with its number. -/
def trial (w : Who) : List Op → Nat → Trial → Except (EStatus × Nat × State) Trial
  | [], _, t => .ok t
  | o :: rest, i, t =>
    match t.state.operate w o.req 0 with
    | .done a s => if a.st = .ok ∨ a.st = .busyDeferred then trial w rest (i + 1) { t with state := s } else .error (a.st, i, s)
    | .commit l _ _ s => trial w rest (i + 1) { t with state := s.each l fun s p => s.takeEffect p.1 p.2, writes := t.writes ++ l }
    | .append _ _ _ s => .error (.typeLength, i, s)
    | .silent s => .ok { t with state := s, silent := true }

/-- Nothing of a refused batch stays but what its refusal itself leaves: a spent challenge, POOL_SHORT, random draws. (DEDUCED, log entry 23.) -/
def State.undo (s t : State) : State :=
  { s with free := t.free, rng := t.rng, life := { s.life with challenge := t.life.challenge }
           units := { s.units with short := t.units.short } }

/-- What of a refused batch stays in the end: the requester's transfer goes with TYPE_LENGTH, and AUTH_FAIL is logged (R346). -/
def State.refuseBatch (s t : State) (b : Batch) (st : EStatus) (i : Nat) : State :=
  let s := s.undo t
  let s := match st, t.jnl.events.getLast? with
    | .typeLength, _ => s.dropOpen (.session b.k)
    | .authFail, some e => s.logEvent e.code e.inst e.detail
    | _, _ => s
  s.endBatch b st i

/-- Values that a refused batch had committed go back in the journal, with the next group of the block's own (R355). (DEDUCED, log entry 23.) -/
def State.journalBack (s : State) (l : List (Obj × Bytes)) : State :=
  s.holdRecs (l.map fun p => JRec.value p.1 (s.valueOf p.1))

/-- Run an atomic batch whose PERSIST values `l` are durable. -/
def State.applyBatch (s : State) (b : Batch) (l : List (Obj × Bytes)) : State :=
  match trial (.session b.k) b.rest 0 ⟨s, [], false⟩ with
  | .ok t => if t.silent then t.state else t.state.endBatch b .ok 0
  | .error (st, i, t) => (s.journalBack l).refuseBatch t b st i

/-- Check an atomic batch, then commit its PERSIST values in one record, or run it at once. (DEDUCED, log entry 23.) -/
def State.atomicBatch (s : State) (b : Batch) : State :=
  if !b.wellMade then (s.dropOpen (.session b.k)).endBatch b .typeLength 0
  else
    match trial (.session b.k) b.rest 0 ⟨s, [], false⟩ with
    | .error (st, i, t) => s.refuseBatch t b st i
    | .ok t =>
      if t.writes = [] then s.applyBatch b []
      else s.startCommit (.session b.k) t.writes (some b) none 0

/-! ## The service (R353) -/

/-- The service cannot take the next operation: a commit, an append or a compaction is under way (R353, R424). -/
def State.dictBusy (s : State) : Bool :=
  s.dict.commit.isSome || s.dict.appendBy.isSome || s.jnl.state == .compacting

/-- Data bytes that the answer to a batch's next operation may hold: what is left of 1,460 bytes, 12 kept for the header
of each operation still to come (R358). -/
def Batch.room (b : Batch) : Nat :=
  1460 - (b.done.map fun r => 12 + r.data.length).sum - 12 * b.rest.length

/-- A request over a session needs an engine: COAST ends (R359, R468). -/
def State.wakeFor (s : State) (r : DReq) : State :=
  if r.obj.any Obj.needsEngine then s.updPwr fun p => { p with coastCause := p.coastCause || p.state == .coast } else s

/-- The next operation of the batch in process, or its end. -/
def State.batchNext (s : State) (b : Batch) : State :=
  match b.rest with
  | [] => s.endBatch b .ok 0
  | o :: _ =>
    let s := s.wakeFor o.req
    s.settle (.session b.k) (s.operate (.session b.k) o.req b.room)

/-- One turn of the service: the batch in process first, then what waits. None when there is nothing it can do. -/
def State.dictTurn (s : State) : Option State :=
  if s.dictBusy then none
  else
    match s.dict.batch, s.dict.waiting with
    | some b, _ => some (s.batchNext b)
    | none, .single w r :: rest =>
      let s := s.updDict fun d => { d with waiting := rest }
      some (s.settle w (s.operate w r (roomOf w)))
    | none, .batch b :: rest =>
      let s := s.updDict fun d => { d with waiting := rest, batch := some b }
      some (if b.atomic then (b.rest.foldl (fun s o => s.wakeFor o.req) s).atomicBatch b else s)
    | none, [] => none

def dictTurns : Nat → State → State
  | 0, s => s
  | n + 1, s =>
    match s.dictTurn with
    | some t => dictTurns n t
    | none => s

/-- Operations that wait. -/
def Dict.work (d : Dict) : Nat :=
  (d.waiting.map fun x => match x with
    | .single _ _ => 1
    | .batch b => b.rest.length + 2).sum + (d.batch.map fun b => b.rest.length + 1).getD 0

/-- Serve what waits, as far as it goes. -/
def State.serveDict (s : State) : State := dictTurns s.dict.work s

/-- Put a request behind those that wait. -/
def State.enqueue (s : State) (x : Waiting) : State := s.updDict fun d => { d with waiting := d.waiting ++ [x] }

/-- The request as the service takes it: more data than the buffer holds ends with RANGE (R348). -/
def DReq.fit (r : DReq) (n : Nat) : DReq :=
  match r with
  | .write _ b => if b.length ≤ n then r else .bad .range
  | .segWrite _ _ _ _ b => if b.length ≤ n then r else .bad .range
  | _ => r

/-- The mailbox accepts the write of MB_REQ: the service runs for it (R492, R433, R26). -/
def State.boxServed (s : State) (w : Who) : Bool := s.pwr.boot == .ready || (s.pwr.boot == .romMode && w == .mgr)

/-- A request starts in a mailbox that has just been written; BUSY refuses it (R348). -/
def State.startRequest (s : State) (w : Who) (r : DReq) : State :=
  match s.dict.box w with
  | none => s
  | some m =>
    if m.busy then s.portError
    else
      let s := (s.portOk.exchange 0 (.request w r)).updPwr fun p => { p with coastCause := p.coastCause || p.state == .coast }
      ((s.updDict fun d => d.updBox w fun m => { m with busy := true, done := false }).enqueue
        (.single w (r.fit (roomOf w)))).serveDict

/-- The port answers, and no word of an access of w's mailbox is poisoned in its crossing FIFOs, which number 18 is the manager
mailbox's (R447, R448). (DEDUCED, log entry 21.) -/
def State.boxClean (s : State) (w : Who) : Bool := s.portClean && !(w == .mgr && s.flt.fifo.contains 18)

/-- A word on its way to w's mailbox, which is served: poisoned, the access receives an error response and has no effect (R447). -/
def State.throughBox (s : State) (w : Who) (f : State → State) : State :=
  if s.boxClean w then f s else (s.fifoWord 18).2.portError

/-- A request of w: through its mailbox, an access of the target port; or over its open session, as one operation. (DEDUCED, log entry 34.) -/
def State.request (s : State) (w : Who) (r : DReq) : State :=
  match w with
  | .session k =>
    if s.alive && (s.eoa.sessions[k]).any (·.opened) then (((s.wakeFor r).enqueue (.single w r))).serveDict else s
  | _ =>
    if s.portClean then
      let s := s.count 0x201E 1
      if s.boxServed w then s.throughBox w (·.startRequest w r) else s.portError
    else s.portTurned

/-- The operation on an index and subindex, or the status that steps 1 and 2 of R345 end it with. -/
def named (i sub : Nat) (f : Obj → DReq) : DReq :=
  match Obj.resolve i sub with
  | .ok o => f o
  | .error st => .bad st

/-! ## Rows -/

def execRead (w : Who) (i sub : Nat) (s : State) : Host.Outcome State Fault Refusal := .next (s.request w (named i sub .read))
def execWrite (w : Who) (i sub : Nat) (b : Bytes) (s : State) : Host.Outcome State Fault Refusal :=
  .next (s.request w (named i sub (.write · b)))
def execSegWrite (w : Who) (i sub : Nat) (first last : Bool) (arg : Nat) (b : Bytes) (s : State) :
    Host.Outcome State Fault Refusal :=
  .next (s.request w (named i sub (.segWrite · first last arg b)))
def execSegRead (w : Who) (i sub : Nat) (first : Bool) (arg : Nat) (s : State) : Host.Outcome State Fault Refusal :=
  .next (s.request w (named i sub (.segRead · first arg)))
def execSegAbort (w : Who) (s : State) : Host.Outcome State Fault Refusal := .next (s.request w .abort)

/-- TRANSFER_IDLE: 10 s have passed between segments of w's transfer (R352). -/
def execTransferIdle (w : Who) (s : State) : Host.Outcome State Fault Refusal :=
  .next (if s.alive || s.pwr.boot == .romMode then (s.exchange 0 .tick).dropOpen w else s)

def execUpdSegment (w : Who) (first last : Bool) (arg : Nat) (b : Bytes) (s : State) : Host.Outcome State Fault Refusal :=
  .next (s.request w (.segWrite .updSegment first last arg b))

/-! ## Commands that write one object -/

def execLcRequest (w : Who) (b : Bytes) (s : State) : Host.Outcome State Fault Refusal := .next (s.request w (.write .lcRequest b))
def execDebugEnable (w : Who) (b : Bytes) (s : State) : Host.Outcome State Fault Refusal := .next (s.request w (.write .debugEnable b))
def execHostMeasure (w : Who) (b : Bytes) (s : State) : Host.Outcome State Fault Refusal := .next (s.request w (.write .hostMeasure b))
def execRecoveryAttest (w : Who) (b : Bytes) (s : State) : Host.Outcome State Fault Refusal :=
  .next (s.request w (.value .recoveryAttest b))
def execRootDelivery (w : Who) (b : Bytes) (s : State) : Host.Outcome State Fault Refusal := .next (s.request w (.value .rootDelivery b))
def execAnchorRestore (w : Who) (b : Bytes) (s : State) : Host.Outcome State Fault Refusal :=
  .next (s.request w (.value .anchorRestore b))
def execAnchorPkg (w : Who) (b : Bytes) (s : State) : Host.Outcome State Fault Refusal := .next (s.request w (.value .anchorPkg b))
def execTmpClear (w : Who) (mask : BitVec 8) (s : State) : Host.Outcome State Fault Refusal :=
  .next (s.request w (.write .tmpClear [mask]))
def execEdgeLoad (w : Who) (b : Bytes) (s : State) : Host.Outcome State Fault Refusal := .next (s.request w (.write .edgeLoad b))
def execEdgeFree (w : Who) (b : Bytes) (s : State) : Host.Outcome State Fault Refusal := .next (s.request w (.write .edgeFree b))
def execJnlCompact (w : Who) (b : Bytes) (s : State) : Host.Outcome State Fault Refusal := .next (s.request w (.write .jnlCompact b))
def execUpdBegin (w : Who) (b : Bytes) (s : State) : Host.Outcome State Fault Refusal := .next (s.request w (.write .updBegin b))
def execUpdAbandon (w : Who) (b : Bytes) (s : State) : Host.Outcome State Fault Refusal := .next (s.request w (.write .updAbandon b))
def execWakeKey (w : Who) (k : Fin 4) (b : Bytes) (s : State) : Host.Outcome State Fault Refusal :=
  .next (s.request w (.write (.wakeKey k) b))
def execFaultInject (w : Who) (b : Bytes) (s : State) : Host.Outcome State Fault Refusal := .next (s.request w (.write .faultInject b))
def execSessionClose (w : Who) (b : Bytes) (s : State) : Host.Outcome State Fault Refusal := .next (s.request w (.write .sessionClose b))
def execRtLoad (w : Who) (b : Bytes) (s : State) : Host.Outcome State Fault Refusal := .next (s.request w (.value .rtLoad b))
def execRecAppend (w : Who) (b : Bytes) (s : State) : Host.Outcome State Fault Refusal := .next (s.request w (.value .recAppend b))
def execS1Enable (w : Who) (b : Bytes) (s : State) : Host.Outcome State Fault Refusal := .next (s.request w (.write .s1Enable b))

/-- COMMAND with one value (R129). -/
def State.instCmd (s : State) (w : Who) (n : Fin 128) (c : Byte) : State := s.request w (.write (.instCommand n) [c])

def execCreate (w : Who) (n : Fin 128) (s : State) : Host.Outcome State Fault Refusal := .next (s.instCmd w n 1#8)
def execActivate (w : Who) (n : Fin 128) (s : State) : Host.Outcome State Fault Refusal := .next (s.instCmd w n 2#8)
def execQuiesce (w : Who) (n : Fin 128) (s : State) : Host.Outcome State Fault Refusal := .next (s.instCmd w n 3#8)
def execReset (w : Who) (n : Fin 128) (s : State) : Host.Outcome State Fault Refusal := .next (s.instCmd w n 4#8)
def execDestroy (w : Who) (n : Fin 128) (s : State) : Host.Outcome State Fault Refusal := .next (s.instCmd w n 5#8)
def execReshare (w : Who) (n : Fin 128) (s : State) : Host.Outcome State Fault Refusal := .next (s.instCmd w n 6#8)
def execSelfReset (w : Who) (n : Fin 128) (s : State) : Host.Outcome State Fault Refusal :=
  .next (s.request w (.write (.selfReset n) [1#8]))
def execPelMove (w : Who) (n : Fin 128) (b : Bytes) (s : State) : Host.Outcome State Fault Refusal :=
  .next (s.request w (.write (.pelMove n) b))
def execSqEnable (w : Who) (g : Fin 512) (s : State) : Host.Outcome State Fault Refusal := .next (s.request w (.write (.sqEnable g) [1#8]))
def execSqDisable (w : Who) (g : Fin 512) (s : State) : Host.Outcome State Fault Refusal := .next (s.request w (.write (.sqEnable g) [0#8]))
def execCqEnable (w : Who) (q : Fin 256) (s : State) : Host.Outcome State Fault Refusal := .next (s.request w (.write (.cqEnable q) [1#8]))
def execCqDisable (w : Who) (q : Fin 256) (s : State) : Host.Outcome State Fault Refusal := .next (s.request w (.write (.cqEnable q) [0#8]))

/-! ## The end of a commit -/

/-- The group of the commit in process is durable: its values take effect, and it is answered (R422). -/
def State.commitEnds (s : State) (c : Commit) (g : Group) : State :=
  let s := s.updDict fun d => { d with commit := none }
  let s := ((s.groupDurable g).updJnl Jnl.s0Ended).setClocks
  match c.batch with
  | some b => s.applyBatch b c.writes
  | none =>
    let s := s.each c.writes fun s p => s.takeEffect p.1 p.2
    let s := match c.segment with
      | some n => s.updJnl fun j => j.segment n
      | none => s
    s.answerCommit c .ok

end Sys2Proof.Machine
end

