-- ==== Sys2Proof/Machine/Cards.lean ====
section
/-! DEFINITION. The events of the two card slots (R398 to R417): initialisation of both, removal and insertion, and how
operations go on, fail and time out. -/

namespace Sys2Proof.Machine

/-! ## Ending an append (R378, R415) -/

/-- The REC_APPEND of `payload` bytes is answered, and what waited behind it is served. -/
def State.endAppend (s : State) (st : EStatus) (payload : Nat) : State :=
  match s.dict.appendBy with
  | some w =>
    ((s.answer w { Ans.plain st with arg := payload, bytes := payload }).updDict fun d => { d with appendBy := none }).serveDict
  | none => s

/-- An append that stops before its commit point ends with STATE_CONFLICT; `t` is the state without it. -/
def State.stopAppend (t : State) (a : Option Append) : State :=
  match a with
  | some a => t.endAppend .stateConflict a.payload.length
  | none => t

/-- The removal sequence, with the end of the append under way (R69, R378, R409). -/
def State.takeCard (s : State) (st : S1St) : State := (s.removeCard st).stopAppend s.card.append

/-- Slot 1 enters FAILED (R407). (DEDUCED, log entry 31.) -/
def State.slot1Fails (s : State) : State := s.cardFailed.stopAppend s.card.append

/-! ## Removal and insertion (R409) -/

/-- A rising edge of S1_CD_N: the removal sequence in any state; in POWER_OFF the 10 ms goes on. -/
def State.removal (s : State) : State :=
  if s.pins.s1CdHigh then s
  else
    let s := s.updPins fun p => { p with s1CdHigh := true }
    if !s.portAnswers || s.card.state == .powerOff then s
    else ((s.takeCard .powerOff).count 0x2023 3)

def execRemoval (s : State) : Host.Outcome State Fault Refusal :=
  .next ((s.exchange 1 .interrupt).removal)

/-- The 10 ms with the card unpowered are over; `cardLow` is S1_CD_N low. -/
def State.holdEnds (s : State) (cardLow : Bool) : State :=
  if s.card.state = .powerOff then
    let s := s.updPins fun p => { p with s1CdHigh := !cardLow }
    if s.cfg.s1Enable then s.debounce else s.updCard fun d => { d with state := .disabled }
  else s

def execPowerOffHold (cardLow : Bool) (s : State) : Host.Outcome State Fault Refusal :=
  .next ((s.exchange 1 .tick).holdEnds cardLow)

/-- S1_CD_N falls. (DEDUCED, log entry 31.) -/
def State.insertion (s : State) : State :=
  let s := s.updPins fun p => { p with s1CdHigh := false }
  if s.portAnswers && s.card.state == .empty && s.cfg.s1Enable then s.updCard fun d => { d with state := .debounce } else s

/-- DESIGN CHOICE, log entry 42. -/
def execInsertion (s : State) : Host.Outcome State Fault Refusal :=
  .next ((s.exchange 1 .interrupt).insertion)

/-! ## Initialisation (R405) -/

/-- Steps 2 to 4 succeed: the card answers, and accepts the 1.8 V switch. -/
def State.cardAnswers (c : CardIn) : Bool := c.echo && c.ready && c.ccs && c.s18a && (c.switch1 || c.switch2)

/-- Steps 2 to 7 succeed, and with which mode. -/
def State.initMode (s : State) (c : CardIn) : Option Nat :=
  if State.cardAnswers c && c.later then s.chooseMode c.modes else none

/-- The commands that the initialisation sends. -/
def State.initCmds (s : State) (c : CardIn) : List CardCmd :=
  c.firstCmds ++ if State.cardAnswers c then c.laterCmds (s.chooseMode c.modes) else []

/-- The card is identified, at 1.8 V in the chosen mode, and checked. -/
def State.cardReady (s : State) (c : CardIn) (mode : Nat) : State :=
  let s := s.updPins fun p => { p with s1Vsel := true }
  let s := s.updCard fun d => { d with cid := padTo 16 c.cid, supported := c.modes, mode := mode, rca := c.rca, init := none }
  ((s.insertionCheck c.places).updCard fun d => { d with state := .ready }).setClocks

/-- Debounce has ended with a card present: it is powered, and its initialisation begins under S1_MODES as it stands (R377, R405). A
preparation of FREEWHEEL keeps slot 1 unpowered (R410). (DEDUCED, log entry 31.) -/
def State.debounceEnd (s : State) (c : CardIn) : State :=
  if s.portAnswers && s.card.state == .debounce && !s.pins.s1CdHigh && s.pwr.prep.isNone then
    let s := s.updPins fun p => { p with s1Pwr := true, s1Vsel := false }
    (s.updCard fun d => { d with state := .init, init := some c, initTries := 0, initTuned := false, permitted := s.cfg.s1Modes }).setClocks
  else s

/-- An initialisation of slot 1 ends in READY or in FAILED. -/
def State.cardStarts (s : State) : State :=
  match s.card.init with
  | none => s
  | some c =>
    let s := s.s1Send (s.initCmds c)
    match s.initMode c with
    | some m => s.cardReady c m
    | none => s.cardFailed

def execDebounceEnd (c : CardIn) (s : State) : Host.Outcome State Fault Refusal :=
  .next ((s.exchange 1 .tick).debounceEnd c)

/-! ## Slot 0 (R398, R400, R402) -/

/-- A nonce of RPMB is drawn (R402). -/
def State.rpmbNonce (s : State) : State :=
  let r := s.drawBytes false 16
  r.2.exchange 0 (.random r.1)

/-- The authenticated read of the write counter, with a fresh nonce (R402, R403). -/
def State.rpmbCounter (s : State) : State := s.rpmbNonce.s0More rpmbAsk

/-- RPMB is checked at each READY: its key is programmed once, in a frame that counts in the budget (R425), or is the block's, or is
foreign. -/
def State.rpmbCheck (s : State) : State :=
  let key (k : Option Bytes) (f : Bool) (s : State) : State := s.updJnl fun j => { j with rpmb := { j.rpmb with key := k, foreign := f } }
  let s := s.rpmbCounter
  match s.rpmbKey, s.jnl.rpmb.key with
  | none, none => s
  | some k, none => if s.exemptFits 512 then (((key (some k) false s).spend 512).s0More rpmbCmds).rpmbCounter else s
  | k, some d => if k = some d ∧ s.jnl.rpmb.counter < 0xFFFFFFFF then key (some d) false s else (key (some d) true s).cause 15

/-- READY (R398 step 7, R400): what steps 4 to 6 found and set, and the clock running. -/
def State.slot0Ready (s : State) (x : S0In) : State :=
  (s.updJnl fun j =>
    { j with s0State := .ready, s0Slept := false, s0Init := none, s0Waits := false, s0Hs200 := true, s0Cache := false, s0Cid := padTo 16 x.cid
             s0Cap := x.capacity }).setClocks

/-- FAILED (R398, R407), the journal with it. -/
def State.slot0Down (s : State) : State :=
  ((s.updJnl fun j =>
    { j with s0State := .failed, s0Slept := false, s0Init := none, s0Cycle := false, s0Waits := false, state := .failed }).setClocks).cause 16

/-- Step 1 of R398: S0_PWR_EN is raised, then S0_RST_N; S0_STATE reads INIT. -/
def State.slot0Power (s : State) (x : S0In) : State :=
  let s := s.updPins fun p => { p with s0Pwr := true, s0RstN := true }
  (s.updJnl fun j => { j with s0State := .init, s0Slept := false, s0Init := some x, s0Cycle := false, s0Hs200 := false }).setClocks

/-- The device is powered off for 2 ms, before its initialisation begins (R400, R407). -/
def State.slot0Init (s : State) (x : S0In) : State :=
  let s := s.updPins fun p => { p with s0Pwr := false }
  (s.updJnl fun j => { j with s0State := .init, s0Slept := false, s0Init := some x, s0Cycle := true, s0Hs200 := false }).setClocks

/-- Slot 0 enters FAILED: a group in flight fails, and a commit in process with it (R407, R427). -/
def State.slot0Fails (s : State) : State :=
  let s := s.slot0Down
  let s := if s.jnl.inFlight.isSome then s.groupFailed else s
  match s.dict.commit with
  | some c => (s.refuseCommit c).serveDict
  | none => s

/-- An initialisation goes on: the 2 ms are over, and the device is powered; or it ends, in READY with RPMB checked (R402), or in FAILED.
The operation that led to it is repeated, and what waited is served (R82, R407). -/
def State.slot0Starts (s : State) : State :=
  match s.jnl.s0Init with
  | none => s
  | some x =>
    if s.jnl.s0Cycle then s.slot0Power x
    else
      let again := if s.jnl.s0Stage = 2 then s.jnl.s0Cmds else []
      if x.ok then (((((s.s0Send x.initCmds).slot0Ready x).rpmbCheck).s0More again).goCommit).serveDict
      else (s.s0Send x.initCmds).slot0Fails

/-! ## Transfer failures (R407) -/

/-- The append goes back to its data phase, the repeat counted; `first` are commands that come before it. -/
def State.repeatAppend (s : State) (a : Append) (first : List CardCmd) : State :=
  ((s.updCard fun d => { d with append := some { a with phase := .data } }).s1Send (first ++ a.writeCmds)).count 0x2023 2

/-- Slot 1: a retry, then one attempt after tuning again in SDR50 or SDR104, then the next lower mode with its own
retries, then FAILED. -/
def State.slot1Retry (s : State) (a : Append) : State :=
  if a.tries < s.cfg.crcRetries then s.repeatAppend { a with tries := a.tries + 1 } [⟨false, 12, 0⟩]
  else if !a.retuned && (s.card.mode == 2 || s.card.mode == 3) then s.repeatAppend { a with retuned := true } [⟨false, 12, 0⟩, ⟨false, 19, 0⟩]
  else
    match s.lowerMode s.card.mode with
    | some m =>
      (s.updCard fun d => { d with mode := m }).repeatAppend { a with retuned := true, tries := 0 }
        [⟨false, 12, 0⟩, ⟨false, 6, 0x80FFFFF0 + m⟩]
    | none => s.slot1Fails

/-- A transfer of slot 1's initialisation or insertion check fails: as `slot1Retry`, in the mode that the initialisation has chosen, a
lower one being what it may choose next. (DEDUCED, log entry 31.) -/
def State.initRetry (s : State) (c : CardIn) : State :=
  let d := s.card
  let again (first : List CardCmd) (f : Card → Card) : State :=
    ((s.updCard f).s1Send (⟨false, 12, 0⟩ :: first ++ [⟨false, 18, 0x800⟩, ⟨false, 12, 0⟩])).count 0x2023 2
  match s.chooseMode c.modes with
  | none => s
  | some m =>
    if d.initTries < s.cfg.crcRetries then again [] fun d => { d with initTries := d.initTries + 1 }
    else if !d.initTuned && (m == 2 || m == 3) then again [⟨false, 19, 0⟩] fun d => { d with initTuned := true }
    else
      match ((modeOrder.dropWhile (· != m)).drop 1).find? fun k => bit d.permitted.toNat k && bit c.modes.toNat k with
      | some k => again [⟨false, 6, 0x80FFFFF0 + k⟩] fun d =>
          { d with permitted := d.permitted &&& modesFrom k, initTuned := true, initTries := 0 }
      | none => s.cardFailed

/-- The transfer under way on slot 0 is repeated, the attempt counted. (DEDUCED, log entry 31.) -/
def State.repeatSlot0 (s : State) (first : List CardCmd) : State := (s.s0Send (⟨false, 12, 0⟩ :: first ++ s.jnl.s0Cmds)).count 0x2022 2

/-- Slot 0: a retry, then one attempt after tuning again, then one after a power cycle and R398, then FAILED; `first` are commands that
come before it. (DEDUCED, log entry 31.) -/
def State.slot0Retry (s : State) (x : S0In) (first : List CardCmd) : State :=
  let j := s.jnl
  if j.s0Tries < s.cfg.crcRetries then (s.repeatSlot0 first).updJnl fun i => { i with s0Tries := i.s0Tries + 1, s0Cmds := j.s0Cmds }
  else if j.s0Stage = 0 then (s.repeatSlot0 (x.tuning ++ first)).updJnl fun i => { i with s0Stage := 1, s0Cmds := j.s0Cmds }
  else if j.s0Stage = 1 then ((s.slot0Init x).updJnl fun i => { i with s0Stage := 2 }).count 0x2022 2
  else s.slot0Fails

/-- The operation under way on slot 0 is a write of RPMB. -/
def Jnl.rpmbOpen (j : Jnl) : Bool :=
  match j.inFlight, j.s0Busy with
  | none, some (.half0 _) | none, some (.half1 _) => true
  | _, _ => false

/-- A transfer on slot 0 has ended well: the device has ended busy, and the count of retries starts again (R401, R407). (DEDUCED, log entry 47.) -/
def State.slot0Done (s : State) : State :=
  if s.jnl.s0State = .ready then s.updJnl fun j => { j.s0Ended with s0Tries := 0, s0Stage := 0 } else s

/-- A failed transfer on slot 0. After one of an RPMB write the counter is read with a fresh nonce (R403): advanced, the write took effect,
and is read back; else the frame is built again, and repeated. -/
def State.slot0Failed (s : State) (advanced : Bool) (x : S0In) : State :=
  if !s.jnl.rpmbOpen then s.slot0Retry x []
  else
    let s := s.rpmbNonce
    if advanced then (s.s0Send (rpmbAsk ++ rpmbAsk)).slot0Done else s.slot0Retry x rpmbAsk

/-- CARD_TRANSFER_FAILURE. The commands of an append act once they have left the tandem's output buffer (R452). (DEDUCED, log entry 31.) -/
def State.transferFails (s : State) (slot : Fin 2) (advanced : Bool) (x : S0In) : State :=
  if slot = 0 then (if s.jnl.s0State = .ready then s.slot0Failed advanced x else s)
  else
    match s.card.append, s.card.init with
    | some a, _ => if a.sent then s.slot1Retry a else s
    | none, some c => s.initRetry c
    | none, none => s

def execCardTransferFailure (slot : Fin 2) (counterAdvanced : Bool) (s0 : S0In) (s : State) : Host.Outcome State Fault Refusal :=
  .next ((s.exchange 1 .interrupt).transferFails slot counterAdvanced s0)

/-! ## Operations that end -/

/-- The blocks written are read back (R415 step 4). -/
def State.readBackAppend (s : State) (a : Append) : State :=
  (s.updCard fun d => { d with append := some { a with phase := .readBack } }).s1Send a.readCmds

/-- The append's phase has ended well (R415). The read-back must give the bytes written. -/
def State.appendStep (s : State) (a : Append) (readBack : Bytes) : State :=
  match a.phase with
  | .data => s.updCard fun d => { d with append := some { a with phase := .busy } }
  | .busy => s.readBackAppend a
  | .readBack =>
    if readBack.take a.bytes.length = a.bytes then ((s.commitAppend a).setClocks).endAppend .ok a.payload.length else s.slot1Retry a

/-- CARD_OPERATION_DONE. Data poisoned in the slot's crossing FIFOs is a transfer failure (R447). -/
def State.operationDone (s : State) (slot : Fin 2) (readBack : Bytes) (x : S0In) : State :=
  let w := s.fifoAny (224 + 16 * slot.val) 16
  if w.1 then w.2.transferFails slot false x
  else if slot = 0 then s.slot0Done
  else
    match s.card.append with
    | some a => if a.sent then s.appendStep a readBack else s
    | none => s

def execCardOperationDone (slot : Fin 2) (readBack : Bytes) (s0 : S0In) (s : State) : Host.Outcome State Fault Refusal :=
  .next ((s.exchange 1 .interrupt).operationDone slot readBack s0)

/-! ## Time-outs (R408) -/

/-- Commands that read back what was written to slot 0 last (R403, R408). (PRESUMED, log entry 46.) -/
def Jnl.readBack (j : Jnl) : List CardCmd :=
  match j.inFlight, j.s0Busy with
  | some g, _ => (List.range (recPages g.recs)).flatMap fun i => readCmds (j.pageAt (g.first + i)) 4096
  | none, some (.segment n _) => readCmds (stagingAt n j.updSeg) (j.segLen n)
  | none, some _ => rpmbAsk
  | none, none => []

/-- A write to slot 0 is under way. -/
def Jnl.writing (j : Jnl) : Bool := j.inFlight.isSome || j.s0Busy.isSome

/-- CARD_TIMEOUT: a write busy past its limit, and whether it ended in the second that follows, which CMD13 asks: then it stands, and is
read back. In another phase a time-out is a transfer failure. -/
def State.cardTimeout (s : State) (slot : Fin 2) (ended : Bool) (x : S0In) : State :=
  if slot = 0 then
    if s.jnl.s0State ≠ .ready then s
    else if !s.jnl.writing then s.slot0Retry x []
    else
      let s := s.s0Send [⟨false, 13, 0x00010000⟩]
      if ended then (s.s0More s.jnl.readBack).slot0Done else s.slot0Fails
  else
    match s.card.append, s.card.init with
    | none, none => s
    | none, some c => s.initRetry c
    | some a, _ =>
      if !a.sent then s
      else
        match a.phase with
        | .busy => let s := s.s1Send [⟨false, 13, s.card.rca * 2 ^ 16⟩]; if ended then s.readBackAppend a else s.slot1Fails
        | .data | .readBack => s.slot1Retry a

def execCardTimeout (slot : Fin 2) (ended : LateIn) (s : State) : Host.Outcome State Fault Refusal :=
  .next ((s.exchange 1 .tick).cardTimeout slot ended.ended ended.s0)

/-- APPEND_GRACE: 30 ms into the preparation an append still running gives way to the removal sequence (R410, R469). -/
def execAppendGrace (s : State) : Host.Outcome State Fault Refusal :=
  .next (if s.pwr.prep.isSome && s.card.append.isSome then (s.exchange 1 .tick).takeCard .powerOff else s)

end Sys2Proof.Machine
end

