-- ==== Sys2Proof/Machine/Groups.lean ====
section
/-! DEFINITION. The commands of the journal: a group in flight ends (R422), a snapshot is begun (R424), and the budget window ends
(R425). -/

namespace Sys2Proof.Machine

/-- A group in flight has ended: durable, it takes effect; else the retries of R407 are spent, and slot 0 is FAILED (R407, R422). -/
def State.groupEnds (s : State) (g : Group) (durable : Bool) : State :=
  if !durable then s.slot0Fails
  else
    match s.dict.commit with
    | some c => if c.started then s.commitEnds c g else ((s.ownDurable g).updJnl Jnl.s0Ended).setClocks
    | none => ((s.ownDurable g).updJnl Jnl.s0Ended).setClocks

/-- The journal goes on: with the commit that waits, then with what the block itself has to write, then with the requests that wait. -/
def State.journalOn (s : State) : State := s.goCommit.ownWrites.serveDict

/-- JOURNAL_COMMIT: the group in flight, once its commands have left the tandem's output buffer (R452), has ended durable or failed; with
none in flight, what is held goes out (R392, R422, R426). -/
def execJournalCommit (durable : Bool) (s : State) : Host.Outcome State Fault Refusal :=
  .next (if !s.tandemsRun then s
    else match s.jnl.inFlight with
      | some g => if s.jnl.sent then ((s.exchange 0 .interrupt).groupEnds g durable).journalOn else s
      | none => s.journalOn)

/-- JOURNAL_SNAPSHOT (R424). -/
def execJournalSnapshot (s : State) : Host.Outcome State Fault Refusal :=
  .next (if s.tandemsRun then s.snapshotStep.serveDict else s)

/-- BUDGET_WINDOW_END (R425, R426): held writes go out. -/
def execBudgetWindowEnd (s : State) : Host.Outcome State Fault Refusal :=
  .next (if s.windowOver then
    let s := (((s.exchange 0 .tick).updJnl fun j => { j with dayBytes := 0, winOpen := false }).budgetState)
    if s.tandemsRun then s.journalOn else s
  else s)

end Sys2Proof.Machine
end

