-- ==== Sys2Proof/Machine/Boot.lean ====
section
/-! DEFINITION. Start-up (R435): the vault and epoch (R87, R94, R141), noise sources (R324), slot 0 and RPMB (R398, R402),
recovery of the journal (R428, R429), firmware images (R430 to R434, R438), and what the block is when it accepts jobs. -/

namespace Sys2Proof.Machine

/-! ## Steps 1 and 2 -/

/-- The power handshake at release of DIE_RST_N: RUN, with rails and clocks in range (R53, R466, R79). (DEDUCED, log entry 32.) -/
def State.releaseDie (s : State) (strap : Bool) : State :=
  { s with
    pins := { s.pins with pmStateReq := 0b10#2, pmDownAck := false, strap := strap, pmRailsOk := true, pmClksOk := true }
    pwr := { s.pwr with state := .run, boot := .held, dieReset := false, resident := false, prep := none, retained := none
                        wakeInReset := false, coastCause := false, powerLost := false, coastSince := none, calmSince := none }
    life := { s.life with restart := false } }

/-- The vault is lost: found zero in PROVISION, FIELD or RETURN (R87). -/
def State.vaultGone (s : State) : Bool :=
  !s.vault.map && (s.life.fuse == .provision || s.life.fuse == .field || s.life.fuse == .ret)

/-- Step 1: a lost vault starts anew; a transition that stopped after its commit point is completed (R94). -/
def State.vaultCheck (s : State) : State :=
  if s.vaultGone then s.newVault s.life.fuse
  else if s.vault.map && s.vault.lcSeen != s.life.fuse.code then s.lifeVault s.life.fuse
  else s

/-- Step 2: the boot epoch advances, but in BLANK and SCRAP (R55, R87). -/
def State.nextEpoch (s : State) : State :=
  if s.life.fuse = .blank ∨ s.life.fuse = .scrap then s
  else s.updVault fun v => { v with bootEpoch := (v.bootEpoch + 1) % 2 ^ 64 }

/-- The hand dealt at an epoch (R141). -/
def handAt (epoch : Nat) : Nat := if epoch = 0 then 1 else (epoch - 1) % 4095 + 1

/-- Every instance is dealt its hand. -/
def State.dealHands (s : State) : State :=
  { s with insts := s.insts.map fun i => { i with hand := handAt s.vault.bootEpoch } }

/-- A tandem that fails its comparator test is retired (R23, R450). -/
def State.testTandem (s : State) (t : Fin 2) (ok : Bool) : State :=
  if ok then s
  else
    (s.updFlt fun f => { f with tandems := f.tandems.set t { f.tandems[t] with inService := false } }).logEvent 0x0023 0xFF
      [BitVec.ofNat 8 t.val, 1#8]

/-- Both tandems are tested; with one left, one tandem serves alone (R24). -/
def State.testTandems (s : State) (a b : Bool) : State :=
  let s := (s.testTandem 0 a).testTandem 1 b
  if a != b then s.cause 9 else s

/-- A lost vault is reported (R87). -/
def State.reportLost (s : State) (lost : Bool) : State :=
  if lost then ((s.updLife fun l => { l with vaultLost := true }).cause 3).logEvent 0x0001 0xFF [] else s

/-- The DRBG is instantiated from the sources that pass; its personalisation string is IDENT, BOOT_EPOCH and the fingerprint (R323 to
R325; PRESUMED, log entry 44). -/
def State.seed (s : State) (ok0 ok1 : Bool) : State :=
  let pers := toLe 8 identValue ++ toLe 8 s.vault.bootEpoch ++ fingerprint
  let s := (s.updRng fun _ => { Rng.reset with pers := pers }).instantiate
  let s := if ok0 then s else s.sourceFails 0
  if ok1 then s else s.sourceFails 1

/-- Steps 1 and 2. Their events carry the new epoch (R87, R393). (DEDUCED, log entry 32.) -/
def State.firstSteps (s : State) (b : BootIn) : State :=
  let s := s.updLife Life.read
  let lost := s.vaultGone
  let s := (s.vaultCheck.nextEpoch).dealHands
  (((s.testTandems b.tandemA b.tandemB).reportLost lost).seed b.source0 b.source1).newChallenge

/-! ## Slot 0 and RPMB (R398, R400, R402) -/

/-- The awake path serves (R400). -/
def State.slot0Wakes (s : State) (x : S0In) : Bool := s.jnl.s0Slept && x.awake

/-- Slot 0 comes up at start-up: by the awake path where it slept, the device off for 2 ms first where it does not answer that, and by
initialisation, which has begun then (R398, R400). -/
def State.slot0Up (s : State) (x : S0In) : State :=
  if s.jnl.s0Slept then
    let s := (s.updPins fun p => { p with s0Pwr := true, s0RstN := true }).s0Send x.awakeCmds
    if x.awake then (s.slot0Ready x).rpmbCheck else s.slot0Init x
  else s.slot0Power x

/-! ## Writes that a power loss met (R401) -/

/-- A write whose device lost its power before it ended busy: each 512-byte block is the old or the new one, as bit 0 of a free byte
says (R401; DESIGN CHOICE, log entry 4). -/
def tornWrite (old new pick : Bytes) : Bytes :=
  (List.range (ceilDiv (max old.length new.length) 512)).flatMap fun i =>
    slice (if bit (byteAt pick i) 0 then new else old) (512 * i) 512

/-- One block of a write is the old one. -/
def tornAny (pick : Bytes) : Bool := pick.any fun b => !bit b.toNat 0

/-- What the device holds of an unsettled write (R401). (DEDUCED, log entry 47.) -/
def State.settleWrite (s : State) (w : S0Write) : State :=
  match w with
  | .segment n old =>
    let new := (s.jnl.staging.lookup n).getD []
    let r := s.fresh (ceilDiv (max old.length new.length) 512)
    r.2.updJnl fun j => { j with staging := assocSet j.staging n (tornWrite old new r.1) }
  | .half0 old =>
    let r := s.fresh 1
    if tornAny r.1 then r.2.updJnl fun j => { j with rpmb := { j.rpmb with half0 := old, counter := j.rpmb.counter - 1 } } else r.2
  | .half1 old =>
    let r := s.fresh 1
    if tornAny r.1 then r.2.updJnl fun j => { j with rpmb := { j.rpmb with half1 := old, counter := j.rpmb.counter - 1 } } else r.2

/-- The unsettled write, if any; a group after it that is found durable shows that the device had ended it. (DEDUCED, log entry 47.) -/
def State.settleWrites (s : State) (kept : Bool) : State :=
  (match s.jnl.s0Busy with
    | some w => if kept && s.jnl.inFlight.isSome && s.jnl.sent then s else s.settleWrite w
    | none => s).updJnl Jnl.s0Ended

/-! ## Images (R430, R432) -/

/-- Entry k of the section table: OFFSET and LEN. -/
def secAt (b : Bytes) (k : Nat) : Nat × Nat := (le b (128 + 64 * k) 4, le b (132 + 64 * k) 4)

/-- Sections follow each other in table order, from offset `from_` up to the image's end. -/
def secsOk (b : Bytes) : List Nat → Nat → Bool
  | [], _ => true
  | k :: rest, from_ =>
    let x := secAt b k
    decide (from_ ≤ x.1 ∧ x.1 + x.2 ≤ le b 16 4) && allZero (slice b (136 + 64 * k) 8) && secsOk b rest (x.1 + x.2)

/-- MAGIC, FORMAT, Res0 and table geometry. -/
def imageForm (b : Bytes) : Bool :=
  let n := le b 6 2
  b.take 4 == [0x4A#8, 0x58#8, 0x46#8, 0x31#8] && le b 4 2 == 1 && decide (1 ≤ n ∧ n ≤ 16) && decide (le b 16 4 ≤ b.length)
    && decide (b.length ≤ 1048576) && decide (8192 ≤ b.length) && allZero (slice b 28 4) && allZero (slice b 72 56)
    && allZero (slice b (128 + 64 * n) (64 * (16 - n))) && decide ((secAt b 0).2 ≤ 131072) && secsOk b (List.range n) 8192

/-- SIG_EC and SIG_PQ verify under Kwaxiva's image keys. -/
def imageSigned (b : Bytes) : Bool :=
  sigsOk Config.imageEc 0x4A Config.imagePq (b.take 1152) (slice b 1152 96) (slice b 1248 4627)

/-- VERSION and SVN of an image. -/
def imageVersion (b : Bytes) : Nat := le b 8 4
def imageSvn (b : Bytes) : Nat := le b 12 4

/-- Section k, decrypted under the content key (R430). -/
def sectionPlain (b : Bytes) (k : Nat) : Option Bytes :=
  ((kwpUnwrap Config.imageKey (slice b 32 40)).filter (·.length == 32)).map fun ck =>
    aesCtr ck (zeros 15 ++ toLe 1 k) (slice b (secAt b k).1 (secAt b k).2)

/-- Section k, decrypted, matches its DIGEST. -/
def secDigestOk (b : Bytes) (k : Nat) : Bool :=
  (sectionPlain b k).any fun p => digest 0x32 48 p == slice b (144 + 64 * k) 48

/-- The sections after section 0. -/
def laterSecs (b : Bytes) : List Nat := (List.range (le b 6 2)).drop 1

/-- R432 with the sections `secs`: none where the image passes, or BOOT_RESULT's code of what fails. -/
def imageFault (b : Bytes) (floor : Nat) (secs : List Nat) : Option Nat :=
  if !(imageForm b && imageSigned b) then some 2
  else if imageSvn b < floor then some 3
  else if !secs.all (secDigestOk b) then some 4
  else none

def State.image (s : State) (k : Fin 2) : Image := s.jnl.images[k]

def State.updImage (s : State) (k : Fin 2) (f : Image → Image) : State :=
  s.updJnl fun j => { j with images := j.images.set k (f j.images[k]) }

/-- An image is rejected: logged, with its cause (R394, R459). -/
def State.rejectImage (s : State) (k : Fin 2) (result : Nat) : State :=
  ((s.updImage k fun i => { i with state := .rejected }).cause 17).logEvent 0x0041 0xFF (toLe 1 result)

/-! ## Recovery of the journal (R428, R429) -/

/-- SVN_FLOOR and selection from the images on slot 0, where neither journal nor RPMB holds them. (DEDUCED, log entry 32.) -/
def State.settleImages (s : State) : State :=
  let ok (k : Fin 2) : Bool := imageForm (s.image k).bytes && imageSigned (s.image k).bytes
  let svn (k : Fin 2) : Nat := if ok k then imageSvn (s.image k).bytes else 0
  let mark (s : State) (k : Fin 2) : State :=
    s.updImage k fun i =>
      if i.bytes = [] then { i with state := .empty }
      else { i with state := if ok k then .valid else .rejected, version := imageVersion i.bytes, svn := imageSvn i.bytes }
  let s := (mark (mark s 0) 1).updCfg fun c => { c with svnFloor := max (svn 0) (svn 1) }
  s.updJnl fun j => { j with active := if ok 0 && decide (svn 1 ≤ svn 0) then 0 else if ok 1 then 1 else 0, trial := false }

/-- The selection takes this value. (DESIGN CHOICE, log entry 50.) -/
def Jnl.select (j : Jnl) (x : Selection) : Jnl :=
  { j with active := x.active, trial := x.trial
           images := .ofFn fun k => { j.images[k] with version := x.images[k].1, svn := x.images[k].2.1, state := x.images[k].2.2 } }

/-- RPMB holds SVN_FLOOR and the selection. -/
def State.rpmbHolds (s : State) : Bool := !s.jnl.rpmb.foreign && s.jnl.rpmb.witness.isSome && s.jnl.rpmb.half1.isSome

/-- SVN_FLOOR from half-sector 0 and the selection from half-sector 1, or both from the images. (DEDUCED, log entry 32.) -/
def State.settleBoot (s : State) : State :=
  match s.rpmbHolds, s.jnl.rpmb.witness, s.jnl.rpmb.half1 with
  | true, some a, some b => (s.updCfg fun c => { c with svnFloor := a.2 }).updJnl fun j => j.select b
  | _, _, _ => s.settleImages

/-- The selection after a replay: RPMB's, where that is the block's and holds one, else the journal's (R423, R431). (DEDUCED, log entry 32.) -/
def State.settleSelection (s : State) : State :=
  match s.jnl.rpmb.foreign, s.jnl.rpmb.half1 with
  | false, some b => s.updJnl fun j => j.select b
  | _, _ => s

/-- PERSIST values at their defaults, the event log as far as tandem memory holds it. -/
def State.persistDefaults (s : State) : State :=
  let s := { s with cfg := Cfg.default }
  let s := s.updInst 0 fun i => { i with staged := Desc.default0 }
  s.updJnl fun j => { j.dropUpdate .idle with events := [], time := 0 }

/-- The value that TMP_CFG of input i has after these records; its default where none holds it. -/
def tmpAfter (l : List JRec) (i : Fin 8) : TmpCfg :=
  l.foldl (fun c r => match r with
    | .value (.tmpCfg k) b => if k = i then ⟨TmpClass.ofCode (byteAt b 0), byteAt b 1 != 0⟩ else c
    | _ => c) ⟨.tamper, false⟩

/-- A record of a TMP_CFG value. These are applied once, with the last value (R375). -/
def JRec.isTmp : JRec → Bool
  | .value (.tmpCfg _) _ => true
  | _ => false

/-- DEDUCED, log entry 32. -/
def State.applyTmp (s : State) (l : List JRec) : State := s.each (List.finRange 8) fun s i => s.setTmpCfg i (tmpAfter l i)

/-- The event log after recovery: what the journal holds, then the events held in tandem memory that no kept group carries. -/
def State.joinEvents (s : State) : State :=
  s.updJnl fun j =>
    let l := j.events ++ j.heldEvents.filter fun e => !j.events.contains e
    { j with heldEvents := j.heldEvents.filter fun e => !j.events.contains e, events := l.drop (l.length - 256), evtSeq := ((l.getLast?).map (·.seq)).getD 0 }

/-- Start afresh at a page number, with defaults and the settled floor and selection. (DEDUCED, log entry 29.) -/
def State.startFresh (s : State) (at_ : Nat) : State :=
  let t := ((s.applyTmp []).settleBoot).freshJournal at_
  if s.rpmbHolds then t else t.writeHalf1

/-- The pages with these numbers are read, one by one (R390, R428). (PRESUMED, log entry 46.) -/
def State.readPages (s : State) (first count : Nat) : State :=
  s.s0More ((List.range count).flatMap fun i => readCmds (s.jnl.pageAt (first + i)) 4096)

/-- Replay the kept groups, the anchor rolling forward to the last. -/
def State.replayAll (s : State) (l : List Group) (dropped : Nat) : State :=
  let recs := l.flatMap (·.recs)
  let a := s.vault.journalAnchor
  let last := (l.getLast?.map (·.last)).getD 0
  let snap := (((l.filter (·.snapshot)).getLast?).map (·.first)).getD 0
  let s := (s.readPages (a + 1) (last + 1 - a)).readPages snap (last + 1 - snap)
  let plain := l.map fun g => { g with recs := g.recs.filter fun r => !r.isTmp }
  let s := (s.each plain fun s g => s.replayGroup g).applyTmp recs
  let s := s.updVault fun v => { v with journalAnchor := last }
  let s := s.updJnl fun j =>
    let j := match l.getLast? with
      | some g => j.restore g
      | none => j
    { j with pseq := last, snapPseq := snap, sinceSnap := ((l.filter fun g => !g.snapshot).map fun g => recBytes g.recs).sum
             time := (l.map Group.seconds).foldl max 0, state := .ready }
  let s := s.settleSelection.joinEvents.budgetState
  if dropped = 0 then s else s.logEvent 0x0030 0xFF (toLe 4 dropped)

/-- Groups found on the device (R429), and the records dropped of one that is not whole; one whose commands had not left the tandem's
output buffer is not there (R452). -/
def Jnl.found (j : Jnl) (kept : Bool) : List Group :=
  match j.inFlight with
  | some g => if kept && j.sent then j.groups ++ [g] else j.groups
  | none => j.groups

def Jnl.lost (j : Jnl) (b : BootIn) : Nat :=
  match j.inFlight with
  | some g => if b.groupKept || !j.sent || recPages g.recs ≤ 1 then 0 else min b.dropped g.recs.length
  | none => 0

/-- JNL_PSEQ of half-sector 0, 0 where RPMB is foreign. -/
def State.witness (s : State) : Nat := if s.jnl.rpmb.foreign then 0 else (s.jnl.rpmb.witness.map (·.1)).getD 0

/-- The page with the anchor's number stands on the device and verifies. (DEDUCED, log entry 32.) -/
def State.headFound (s : State) (l : List Group) : Bool :=
  l.any fun g => decide (g.first ≤ s.vault.journalAnchor ∧ s.vault.journalAnchor ≤ g.last)

/-- R428, from the groups found, with records lost. Without a DUS no journal key exists, and the journal stays NONE. -/
def State.recover (s : State) (found : List Group) (dropped : Nat) : State :=
  let l := found.filter s.readable
  let s := s.persistDefaults.updJnl fun j => { j with groups := l, inFlight := none, state := .recovering }
  let a := s.vault.journalAnchor
  let s := if s.vault.dus.isSome then s.readPages a 1 else s
  let w := s.witness
  if s.vault.dus = none then (((s.applyTmp []).settleBoot).updJnl fun j => { j with state := .none }).joinEvents
  else if a = 0 ∧ l = [] then s.startFresh 1
  else if s.headFound l && w ≤ a then s.replayAll l dropped
  else (s.startFresh (max a w + 1)).logEvent 0x0030 0xFF (toLe 4 0xFFFFFFFF)

/-! ## Update and selection (R431, R438) -/

/-- Values that the boot ROM changes, in a group of their own, or waiting for one where the budget has no room (R426). -/
def State.romCommit (s : State) (l : List JRec) : State :=
  if s.jnlStopped then s else if s.exemptFits (recBytes l) then s.romGroup l false else s.holdRecs l

/-- The boot ROM changes the selection (R431). -/
def State.romSelection (s : State) : State := (s.writeHalf1).romCommit s.jnl.imageRecs

/-- TRIAL still set: the image did not reach ring enable, and the other one is ACTIVE. -/
def State.endTrial (s : State) : State :=
  if s.jnl.trial then
    let k : Fin 2 := if s.jnl.active = 0 then 0 else 1
    let s := s.rejectImage k 4
    (s.updJnl fun j => { j with active := 1 - k.val, trial := false, bootResult := 4 }).romSelection
  else s

/-- The staged bytes, segments in order. -/
def Jnl.stagedBytes (j : Jnl) : Bytes :=
  ((List.range j.segCount).flatMap fun n => (j.staging.lookup n).getD []).take j.updLen

/-- What fails of a staged image, by its BOOT_RESULT. -/
def State.stagedFault (s : State) (b : Bytes) : Option Nat :=
  if digest 0x38 32 b != s.jnl.updId then some 4
  else if !(imageForm b && imageSigned b) then some 2
  else if imageSvn b != s.jnl.updSvn || decide (imageSvn b < s.cfg.svnFloor) then some 3
  else if !(List.range (le b 6 2)).all (secDigestOk b) then some 4
  else none

/-- The image that is not ACTIVE. -/
def Jnl.spare (j : Jnl) : Fin 2 := if j.active = 0 then 1 else 0

/-- The copy of a staged image into image k goes to the device, which is then read back (R399, R438). -/
def State.copyImage (s : State) (k : Fin 2) (b : Bytes) : State :=
  (s.spend b.length).s0Send
    (readCmds (stagingAt 0 s.jnl.updSeg) b.length ++ writeCmds (imageAt k) b.length ++ readCmds (imageAt k) b.length)

/-- Power is lost during the copy: each block of the image is the old or the new one, and UPD_STATE stays STAGED (R401, R438). (DEDUCED, log entry 47.) -/
def State.copyTorn (s : State) (b : Bytes) : State :=
  let k := s.jnl.spare
  let r := (s.copyImage k b).fresh (ceilDiv (max (s.image k).bytes.length b.length) 512)
  (r.2.updImage k fun i => { i with bytes := tornWrite i.bytes b r.1 }).losePower

/-- The staged image is copied into the image that is not ACTIVE, which becomes ACTIVE on trial. -/
def State.acceptStaged (s : State) (b : Bytes) : State :=
  let k := s.jnl.spare
  let s := (s.copyImage k b).updImage k fun _ => ⟨b, imageVersion b, imageSvn b, .valid⟩
  let s := (s.updJnl fun j => { j with active := k.val, trial := true, bootResult := 1 }).writeHalf1
  ((s.romCommit (s.jnl.imageRecs ++ [.value .updState [0#8]])).applyValue .updState [0#8]).logEvent 0x0040 0xFF (toLe 4 (imageSvn b))

/-- The check at a cold start; it waits while the copy could not start (R426). `cut`: power is lost during the copy. -/
def State.checkStaged (s : State) (cut : Bool) : State :=
  if s.jnl.updState != .staged || s.jnlStopped then s
  else if s.budgetSpent then s.updJnl fun j => { j with bootResult := 0 }
  else
    let b := s.jnl.stagedBytes
    match s.stagedFault b with
    | none => if cut then s.copyTorn b else s.acceptStaged b
    | some r =>
      ((((s.romCommit [.value .updState [3#8]]).applyValue .updState [3#8]).updJnl fun j => { j with bootResult := r }).cause 17).logEvent 0x0041 0xFF (toLe 1 r)

/-- Image k may boot: not rejected before, and header, SVN and section 0 pass. (DEDUCED, log entry 32.) -/
def State.bootFault (s : State) (k : Fin 2) : Option Nat :=
  if (s.image k).state = .rejected then some 4 else imageFault (s.image k).bytes s.cfg.svnFloor [0]

/-- An image that fails is marked, unless it is empty or marked already. (DEDUCED, log entry 32.) -/
def State.failImage (s : State) (k : Fin 2) (r : Nat) : State :=
  if (s.image k).bytes = [] ∨ (s.image k).state = .rejected then s else s.rejectImage k r

/-- Image k is read from the device, with section 0 (R399). (PRESUMED, log entry 46.) -/
def State.readImage (s : State) (k : Fin 2) (off len : Nat) : State := s.s0Send (readCmds (imageAt k + off) len)

/-- The image that boots, which is then ACTIVE (R431). (DEDUCED, log entry 32.) -/
def State.selectImage (s : State) : Option (Fin 2) × State :=
  let a : Fin 2 := if s.jnl.active = 0 then 0 else 1
  let o : Fin 2 := if s.jnl.active = 0 then 1 else 0
  let s := s.readImage a 0 (8192 + (secAt (s.image a).bytes 0).2)
  match s.bootFault a with
  | none => (some a, s)
  | some r =>
    let s := (s.failImage a r).readImage o 0 (8192 + (secAt (s.image o).bytes 0).2)
    match s.bootFault o with
    | none => (some o, (s.updJnl fun j => { j with active := o.val }).romSelection)
    | some q => (none, (s.failImage o q).romSelection)

/-- R434: the measurement of the image that runs. -/
def State.measureImage (s : State) (k : Fin 2) : State :=
  let b := (s.image k).bytes
  (s.updLife fun l => { l with fwMeasure := digest 0x32 48 (b.take 1152), fwSvn := imageSvn b }).updJnl fun j =>
    { j with runImage := k.val }

/-! ## Step 6 -/

/-- Instance 0 is created from its staged values, or from the defaults where they fail a check (R134). -/
def State.createZero (s : State) : State :=
  let r := s.create 0
  if r.1 = .ok then r.2
  else
    let d := (s.inst 0).staged
    let t := (s.updInst 0 fun i => { i with staged := Desc.default0 }).create 0
    t.2.updInst 0 fun i => { i with staged := d }

/-- The role in the peloton, and a strap that does not match (R71, R385). (DEDUCED, log entry 33.) -/
def State.setRole (s : State) : State :=
  let c := s.cfg.pelConfig
  let role : Role := if c = 0 then .solo else if c = 1 ∧ s.pins.strap then .lead else .follower
  let s := s.updCas fun x => { x with role := role, member := Fin.ofNat 4 s.cfg.pelMember, prints := s.cfg.pelPeers }
  if (c == 1) != s.pins.strap then
    (s.cause 22).logEvent 0x0051 0xFF [BitVec.ofNat 8 c, BitVec.ofNat 8 (flag s.pins.strap)]
  else s

/-- The block accepts jobs: KB_ZEROISE falls (R492); rings may be enabled, so TRIAL is cleared (R431); a card that is
present is debounced (R410); TIME_LOST is logged where TB_VALID is low (R78). (DEDUCED, log entry 32.) -/
def State.acceptJobs (s : State) : State :=
  let s := s.createZero.updPwr fun p => { p with boot := .ready }
  let s := s.updPins fun p => { p with kbZeroise := false }
  let s := if s.jnl.trial then (s.updJnl fun j => { j with trial := false }).commitSelection else s
  let s := if s.cfg.s1Enable then s.debounce else s
  let s := if s.pins.tbValid then s else s.logTimeLost
  s.setRole.flushLate

/-- ROM mode (R433). -/
def State.romMode (s : State) : State := (((s.updPwr fun p => { p with boot := .romMode }).cause 21).standStill).flushLate

/-! ## The sequence -/

/-- The retained position is that of the head page (R435 step 4). -/
def State.retainedOk (s : State) (pseq : Nat) : Bool :=
  s.vault.journalAnchor == pseq && s.headFound (s.jnl.groups.filter s.readable)

/-- What of start-up comes next. (DESIGN CHOICE, log entry 3.) -/
def State.nextStep (s : State) (b : BootIn) (kept : Option Retained) (n : BootStep) : State :=
  s.updPwr fun p => { p with starting := some (b, kept), bootStep := n }

/-- Retained section 0 agrees with the retained DIGEST, and that with FW_MEASURE, whose span holds it (R434, R435 step 5). (DEDUCED, log entry 32.) -/
def Retained.intact (r : Retained) : Bool :=
  digest 0x32 48 r.section0 == slice r.manifest 144 48 && digest 0x32 48 r.manifest == r.fwMeasure

/-- Steps 1 and 2; then slot 0 is powered, or, on the awake path, retained section 0 is taken. What is not intact makes the start cold,
with a new count of the budget until the head page is read. (DEDUCED, log entry 32.) -/
def State.bootFirst (s : State) (b : BootIn) (kept : Option Retained) : State :=
  let s := s.firstSteps b
  if !b.tandemA && !b.tandemB then s.updPwr fun p => { p with boot := .dead }
  else
    match kept.filter (·.intact) with
    | some r => (s.settleWrites b.groupKept).nextStep b (some r) .accept
    | none =>
      let s := (s.settleWrites b.groupKept).updJnl fun j => { j with dayBytes := 0, winOpen := false }
      (s.slot0Up b.s0).nextStep b none .load

/-- Steps 4 and 5 of a cold start, once slot 0 is up; ROM mode where it is not, or where no image passes. A power loss in step 5 ends it.
(DEDUCED, log entry 32.) -/
def State.bootLoad (s : State) (b : BootIn) : State :=
  if s.jnl.s0State = .failed then s.persistDefaults.joinEvents.romMode
  else
    let s := ((s.recover (s.jnl.found b.groupKept) (s.jnl.lost b)).endTrial).checkStaged b.copyCut
    if s.pwr.dieReset then s
    else
      match s.selectImage with
      | (some k, s) => (s.measureImage k).nextStep b none .accept
      | (none, s) => s.romMode

/-- No ring is enabled, and no job runs (R433). -/
def State.stopRings (s : State) : State := (s.each allInst fun s n => s.disableRings n).setJobs []

/-- Once slot 0 is READY after an awake start, the head page is to agree with the retained position, and R428 runs where it does not
(R435 step 4); where slot 0 fails, ROM mode follows (R433). (DEDUCED, log entry 32.) -/
def State.checkHead (s : State) : State :=
  match s.jnl.headDue, s.jnl.s0State with
  | some p, .ready =>
    let s := s.updJnl fun j => { j with headDue := none }
    if s.retainedOk p then (s.updJnl fun j => { j with state := .ready }).budgetState else s.recover s.jnl.groups 0
  | some _, .failed => ((s.updJnl fun j => { j with headDue := none }).stopRings).romMode
  | _, _ => s

/-- Step 6; on the awake path slot 0 is woken in parallel (R435). (DEDUCED, log entry 32.) -/
def State.bootAccept (s : State) (b : BootIn) (kept : Option Retained) : State :=
  match kept with
  | none => s.acceptJobs
  | some r =>
    let s := (s.updLife fun l => { l with fwMeasure := r.fwMeasure, fwSvn := r.fwSvn }).updJnl fun j =>
      { j with runImage := r.image, headDue := some r.pseq, state := .recovering }
    s.acceptJobs.slot0Up b.s0

/-- DIE_RST_N is released: start-up has begun, and runs as time passes (R435; DESIGN CHOICE, log entry 3). -/
def State.beginStartUp (s : State) (b : BootIn) : State := (s.releaseDie b.strap).nextStep b s.pwr.retained .first

/-- What start-up has begun goes on, up to step 6. -/
def State.runStartUp (s : State) : State :=
  match s.pwr.starting with
  | none => s
  | some (b, kept) =>
    let t := s.updPwr fun p => { p with starting := none }
    match s.pwr.bootStep with
    | .first => t.bootFirst b kept
    | .load => if s.jnl.s0Init.isSome then s else t.bootLoad b
    | .accept => t.bootAccept b kept

/-- DIE_RST_N_RELEASE. In OFF the reset is held until AON_POR_N is released. -/
def execDieRstNRelease (b : BootIn) (s : State) : Host.Outcome State Fault Refusal :=
  .next (if s.pwr.dieReset && s.pwr.state != .off then s.beginStartUp b else s)

/-- FIRMWARE_RESIDENT: the remaining sections are loaded and checked. One that fails ends the boot of the image (R432),
and the block runs in ROM mode. (DEDUCED, log entry 32.) -/
def State.resident (s : State) (ok : Bool) : State :=
  let k : Fin 2 := if s.jnl.runImage = 0 then 0 else 1
  let b := (s.image k).bytes
  let s := s.readImage k 8192 (b.length - 8192)
  if ok && (laterSecs b).all (secDigestOk b) then s.updPwr fun p => { p with resident := true }
  else (s.rejectImage k 4).commitSelection.stopRings.romMode

def execFirmwareResident (sectionsOk : Bool) (s : State) : Host.Outcome State Fault Refusal :=
  .next (if s.alive && !s.pwr.resident then s.resident sectionsOk else s)

end Sys2Proof.Machine
end

