-- ==== Sys2Proof/Machine/CasFrame.lean ====
section
/-! DEFINITION. Cascade frames as bytes (R482, R483): header, body, tag, and the CRC-32 of a hop. -/

namespace Sys2Proof.Machine

/-- TYPE of a frame (R483); of a frame passed on, the one it came with. -/
def CasBody.code : CasBody → Nat
  | .enrol1 _ => 0x01
  | .enrol2 _ => 0x02
  | .enrol3 _ => 0x03
  | .pairKeys _ _ => 0x10
  | .heartbeat => 0x11
  | .heartbeatAck => 0x12
  | .capacity _ => 0x13
  | .fwdJob _ _ => 0x20
  | .fwdResult _ _ => 0x21
  | .fwdCancel _ => 0x22
  | .slotInstall .. => 0x30
  | .slotCommit _ => 0x31
  | .slotConfirm _ => 0x32
  | .slotRefuse _ => 0x33
  | .passed t _ => t.toNat

/-- Numbers that describe a moved slot. -/
def MovedSlot.nums (m : MovedSlot) : List Nat :=
  let opt (x : Option Nat) : Nat := (x.map (· + 1)).getD 0
  [m.slot, m.gen, m.usage, m.ktype, m.csrc, m.cnum, m.run, m.depth, m.limit, m.used, m.next, m.stop, opt m.first, opt m.last, opt m.root]
    ++ [m.test, m.sealedOnly, m.tlsSpent].map Bool.toNat

/-- What the body of a protected frame says: numbers and byte strings. -/
def CasBody.parts : CasBody → List Nat × List Bytes
  | .pairKeys ms ks => (ms.map (·.val) ++ ks.map (·.1.val), ks.map (·.2))
  | .capacity n => ([n], [])
  | .fwdJob j w => ([j, w.opcode, w.alg, w.opspec], [w.a, w.b, w.c, w.d])
  | .fwdResult j r => ([j, r.status.code, r.result], [r.out])
  | .fwdCancel j => ([j], [])
  | .slotInstall a b base quota cs l =>
    ([a.val, b.val, base, quota] ++ cs.flatMap (fun c => [c.1, c.2]) ++ l.flatMap MovedSlot.nums,
      l.flatMap fun m => [m.fixed, m.shareA, m.shareB, m.ownerLabel])
  | .slotCommit n => ([n.val], [])
  | .slotConfirm n => ([n.val], [])
  | .slotRefuse n => ([n.val], [])
  | .enrol1 _ | .enrol2 _ | .enrol3 _ | .heartbeat | .heartbeatAck | .passed _ _ => ([], [])

/-- Plaintext of a protected body (R483). (DESIGN CHOICE, log entry 52.) -/
def CasBody.plain (b : CasBody) : Bytes := Config.casBody b.code b.parts.1 b.parts.2

/-- Bytes 0 to 15 (R483). -/
def casHeader (type src dst len ctr : Nat) : Bytes :=
  toLe 1 type ++ toLe 1 src ++ toLe 1 dst ++ zeros 1 ++ toLe 2 len ++ zeros 2 ++ toLe 8 ctr

/-- Ciphertext and tag of a protected body: AES-256-GCM under the pair key, with SRC, DST and CTR as the nonce and bytes 0 to 15 as the
AAD (R483). -/
def sealFrame (key : Bytes) (type src dst ctr : Nat) (p : Bytes) : Bytes :=
  let iv := toLe 1 src ++ toLe 1 dst ++ zeros 2 ++ toBe 8 ctr
  let ct := gcmCrypt key iv p
  ct ++ gcmTag key iv (casHeader type src dst p.length ctr) ct

/-- What follows the header: an enrolment message, or ciphertext and tag. -/
def CasOut.wire (f : CasOut) : Bytes :=
  match f.body with
  | .enrol1 m | .enrol2 m | .enrol3 m => m
  | .passed _ w => w
  | b => sealFrame f.key b.code f.src.val f.dst.val f.ctr b.plain

/-- LEN of a frame with this TYPE, from what follows its header: a protected frame's tag does not count. -/
def casLen (type : Nat) (wire : Bytes) : Nat := if type ∈ [0x01, 0x02, 0x03] then wire.length else wire.length - 16

/-- A whole frame, as a hop carries it before its CRC-32. -/
def frameBytes (type src dst ctr : Nat) (wire : Bytes) : Bytes := casHeader type src dst (casLen type wire) ctr ++ wire

def CasOut.bytes (f : CasOut) : Bytes := frameBytes f.body.code f.src.val f.dst.val f.ctr f.wire

/-- One step of the CRC-32. (PRESUMED, log entry 52: that of IEEE 802.3.) -/
def crcBit (c : Nat) : Nat := if c % 2 = 1 then c / 2 ^^^ 0xEDB88320 else c / 2

/-- The CRC-32 of a frame (R482). (PRESUMED, log entry 52.) -/
def crc32 (b : Bytes) : Nat :=
  b.foldl (fun c x => (List.range 8).foldl (fun c _ => crcBit c) (c ^^^ x.toNat)) 0xFFFFFFFF ^^^ 0xFFFFFFFF

end Sys2Proof.Machine

namespace Sys2Proof

open Sys2Proof.Machine

/-- The hop has carried the frame unharmed (R482). -/
def CasHead.crcOk (h : CasHead) : Bool := h.crc == crc32 (frameBytes h.type.toNat h.src.val h.dst.val h.ctr h.wire)

/-- The frame is this body, sealed under a key (R483). -/
def CasHead.opens (h : CasHead) (key : Bytes) (b : CasBody) : Bool :=
  h.type.toNat == b.code && h.wire == sealFrame key b.code h.src.val h.dst.val h.ctr b.plain

end Sys2Proof
end

