-- ==== Sys2Proof/Machine/Cascade.lean ====
section
/-! DEFINITION. The peloton (R480 to R490): links and hops, enrolment, heartbeats and cut-off, forwarded jobs
(R320 to R322), and slot moves (R154 to R156). -/

namespace Sys2Proof.Machine

/-- The block takes part in a peloton (R480): not SOLO, and no debug since the last die reset. -/
def State.pelOn (s : State) : Bool := s.alive && s.cas.role != .solo && !s.life.debugSince

/-- A follower, cut off or not. -/
def State.isFollower (s : State) : Bool := s.cas.role == .follower || s.cas.role == .cutOff

def State.updPeer (s : State) (m : Fin 4) (f : Peer → Peer) : State :=
  s.updCas fun c => { c with peers := c.peers.set m (f c.peers[m]) }

/-- The side that a link is on: 0 east, 1 west. -/
def side (east : Bool) : Fin 2 := if east then 0 else 1

/-- Members that hold a pair key with this block. -/
def State.enrolled (s : State) : List (Fin 4) :=
  (List.finRange 4).filter fun m => s.cas.peers[m].status == 2 && s.cas.peers[m].key.isSome

/-! ## Pair keys of the followers (R485) -/

/-- Pairs of enrolled followers, each once. -/
def pairsOf (l : List (Fin 4)) : List (Fin 4 × Fin 4) := (l.flatMap fun a => l.map fun b => (a, b)).filter fun p => p.1 < p.2

/-- Keys that go to follower m: one for each other follower. -/
def keysFor (m : Fin 4) (l : List ((Fin 4 × Fin 4) × Bytes)) : List (Fin 4 × Bytes) :=
  l.filterMap fun x => if x.1.1 = m then some (x.1.2, x.2) else if x.1.2 = m then some (x.1.1, x.2) else none

/-- The lead sends PAIR_KEYS to every enrolled follower (R485). -/
def State.sendPairKeys (s : State) : State :=
  let l := s.enrolled
  let ps := pairsOf l
  let r := s.drawBytes false (32 * ps.length)
  let ks := ps.zipIdx.map fun p => (p.1, slice r.1 (32 * p.2) 32)
  (r.2.exchange 1 (.random r.1)).each l fun s m => s.cascadeSend m (.pairKeys l (keysFor m ks))

/-- After a change of the lead's enrolled set (R485). -/
def State.pairsSince (s : State) (before : List (Fin 4)) : State :=
  if s.cas.role = .lead ∧ s.enrolled ≠ before then s.sendPairKeys else s

/-! ## Links and hops (R481, R482) -/

/-- A link has trained; with both, CAS_BYPASS falls (R71). -/
def State.linkTrained (s : State) (d : Fin 2) : State :=
  let s := s.updCas fun c => { c with trained := c.trained.set d true }
  if s.pelOn && s.cas.trained[0] && s.cas.trained[1] then s.updPins fun p => { p with casBypass := false } else s

def execLinkTrained (east : Bool) (s : State) : Host.Outcome State Fault Refusal :=
  .next (if s.alive then s.linkTrained (side east) else s)

/-- The oldest frame of a hop's buffer. -/
def State.hopFrame (s : State) (d : Fin 2) : Option CasOut := s.cas.out[d].head?

/-- Send the oldest frame once more, up to 16 attempts. -/
def State.retransmit (s : State) (d : Fin 2) : State :=
  match s.cas.out[d] with
  | f :: rest => if f.tries < 15 then s.updCas fun c => { c with out := c.out.set d ({ f with tries := f.tries + 1 } :: rest) } else s
  | [] => s

def execCascadeRetransmit (east : Bool) (s : State) : Host.Outcome State Fault Refusal := .next (s.retransmit (side east))

/-- The acknowledged frame leaves the buffer. -/
def execHopAcknowledgement (east : Bool) (s : State) : Host.Outcome State Fault Refusal :=
  .next (s.updCas fun c => { c with out := c.out.set (side east) (c.out[side east].drop 1) })

/-- A forwarded job runs here after all, from the operands held (R322). It is not forwarded again. -/
def State.runLocal (s : State) (id : Nat) : State := (s.updJob id fun j => { j with phase := .context }).seekEngine id .lf

/-- Forwarded jobs whose frames leave by a side. -/
def State.forwardedBy (s : State) (d : Fin 2) : List Nat :=
  (s.jobs.filter fun j => j.phase == .forwarded && j.member4.any fun m => s.sideFor m == some d).map (·.id)

/-- LINK_ERROR: the hop has failed and retrains. Its frames take the other direction, enrolments start again (R484), and
jobs forwarded over it run here (R322). (DEDUCED, log entry 33.) -/
def State.linkError (s : State) (d : Fin 2) : State :=
  if s.cas.trained[d] then
    let jobs := s.forwardedBy d
    let frames := s.cas.out[d]
    let s := s.updCas fun c =>
      { c with trained := c.trained.set d false, out := c.out.set d []
               turn := none
               peers := c.peers.map fun p => if p.status = 1 then { p with status := 0, step := 0, enrol := none } else p }
    let s := (s.count (0x2024 + d.val) 2).count (0x2024 + d.val) 3
    let s := s.each frames fun s f => s.sendHop { f with tries := 0 }
    s.each jobs State.runLocal
  else s

def execLinkError (east : Bool) (s : State) : Host.Outcome State Fault Refusal := .next (s.linkError (side east))

/-! ## Taking a frame (R482, R483, R488) -/

/-- A frame the block drops is counted; no object of the catalogue shows the count (R483). (DESIGN CHOICE, log entry 52.) -/
def State.dropCas (s : State) : State := s.updCas fun c => { c with drops := c.drops + 1 }

/-- The side that a transit frame goes on by: away from the one it came by, or back where that link is down (R482). (DEDUCED, log entry 52.) -/
def State.onward (s : State) (d : Fin 2) : Option (Fin 2) :=
  if s.cas.trained[1 - d] then some (1 - d) else if s.cas.trained[d] then some d else none

/-- A frame for another member goes on unchanged. One of the block's own that has gone round the ring has found no addressee, and is
dropped. (DEDUCED, log entry 52.) -/
def State.passOn (s : State) (d : Fin 2) (h : CasHead) : State :=
  if h.src = s.cas.member ∧ s.sideFor h.dst ≠ some d then s.dropCas
  else s.hopPut (s.onward d) ⟨h.src, h.dst, h.ctr, .passed h.type h.wire, [], 0⟩

/-- The block is in the ring: it takes part, and its bypass is open (R480, R481). -/
def State.inRing (s : State) : Bool := s.pelOn && !s.pins.casBypass

/-- A good frame is acknowledged on its hop (R482), and reaches tandem B as an interrupt of the link's clock (R451). -/
def State.heard (s : State) (h : CasHead) : State :=
  let d := side h.east
  (s.updCas fun c => { c with acks := c.acks.set d (c.acks[d] + 1) }).exchange 1 .interrupt

/-- A frame comes by a port. One that the hop has harmed is not acknowledged, so that it is sent again; poison on its way through the
port's FIFOs is a link error (R447, R448). A good one is acknowledged and taken, or passed on. -/
def State.arrive (s : State) (h : CasHead) (f : State → State) : State :=
  if s.inRing && h.crcOk then
    let d := side h.east
    let w := s.fifoAny (256 + 32 * d.val) 32
    if w.1 then w.2.linkError d
    else if h.dst = s.cas.member then f (s.heard h)
    else (s.heard h).passOn d h
  else s

/-- A protected frame with this body from a member, in sequence and with a good tag. -/
def State.frameOk (s : State) (h : CasHead) (b : CasBody) : Bool :=
  h.src != s.cas.member && s.cas.peers[h.src].key.any (fun k => h.opens k b) && decide (s.cas.peers[h.src].got < h.ctr)

/-- Take a protected frame: its counter is the last accepted. A pair whose counter reaches 2^48 is to be enrolled again. -/
def State.take (s : State) (h : CasHead) : State :=
  s.updPeer h.src fun p =>
    if 2 ^ 48 ≤ h.ctr then { p with got := h.ctr, key := none, status := 0, free := 0 } else { p with got := h.ctr }

/-- A protected frame arrives: taken, or dropped and counted, as one of unknown TYPE is. -/
def State.protectedFrame (s : State) (h : CasHead) (b : CasBody) (f : State → State) : State :=
  s.arrive h fun s => if s.frameOk h b then f ((s.take h).pairsSince s.enrolled) else s.dropCas

/-- Act on a protected frame that is accepted; a follower cut off discards all but heartbeats. -/
def State.onFrame (s : State) (h : CasHead) (b : CasBody) (f : State → State) : State :=
  s.protectedFrame h b fun s => if s.cas.role != .cutOff then f s else s

/-- A cascade frame with a forwarded job or a slot move ends COAST (R468). -/
def State.wakeCas (s : State) : State := s.updPwr fun p => { p with coastCause := p.coastCause || p.state == .coast }

/-! ## Enrolment (R484 to R486) -/

/-- An enrolment message: its counter is 0 (R483). -/
def State.enrolSend (s : State) (m : Fin 4) (b : CasBody) : State :=
  s.updCas fun c => { c with held := c.held ++ [⟨c.member, m, 0, b, [], 0⟩] }

/-- Member m is named in PEL_PEER. -/
def State.namedPeer (s : State) (m : Fin 4) : Bool := m != s.cas.member && !allZero s.cas.prints[m]

/-- The member whose turn it is: of those named and neither enrolled nor refused, the next in ascending order after the last one
started, and then from the lowest again, since one that is absent answers nothing. (DEDUCED, log entry 52.) -/
def State.nextEnrol (s : State) : Option (Fin 4) :=
  let from_ := (s.cas.turn.map (·.val + 1)).getD 0
  ((List.finRange 4).filter (fun m => from_ ≤ m.val) ++ (List.finRange 4).filter (fun m => m.val < from_)).find? fun m =>
    s.namedPeer m && s.cas.peers[m].status != 2 && s.cas.peers[m].status != 3

/-- No enrolment is under way: each has ended, or its 5 ms have passed. -/
def State.enrolFree (s : State) : Bool :=
  s.cas.peers.toList.all fun p => p.step == 0 || p.enrol.all fun e => decide (e.since + 5 * 10 ^ 6 ≤ s.now)

/-- The lead may start enrolling m. -/
def State.mayEnrol (s : State) (m : Fin 4) : Bool :=
  s.pelOn && s.cas.role == .lead && s.cas.trained[0] && s.cas.trained[1] && s.nextEnrol == some m && s.enrolFree

/-- Bytes that a message needs, from the generator, through the exchange of tandem B (R451). -/
def State.drawn (s : State) (n : Nat) : Bytes × State :=
  let r := s.drawBytes false n
  (r.1, r.2.exchange 1 (.random r.1))

/-- An ephemeral key's public half. -/
def ephPub (k : Bytes) : Bytes := publicOf 0x5A k

/-- ENROL_1: a nonce, ENROL_PUB, an ephemeral key and the lead claim. (DESIGN CHOICE, log entry 52, for the order of the contents.) -/
def State.startEnrol (s : State) (m : Fin 4) : State :=
  let r := s.drawn 64
  let eph := slice r.1 32 32
  let msg := slice r.1 0 32 ++ s.enrolPub ++ ephPub eph ++ Config.leadClaim
  let s := r.2.updCas fun c =>
    { c with turn := some m
             peers := c.peers.map fun p => if p.status = 1 then { p with status := 0, step := 0, enrol := none } else p }
  (s.updPeer m fun p => { p with status := 1, step := 1, enrol := some ⟨eph, [], [], msg, [], s.now⟩ }).enrolSend m (.enrol1 msg)

def execEnrolmentStart (m : Fin 4) (s : State) : Host.Outcome State Fault Refusal :=
  .next (if s.mayEnrol m then s.startEnrol m else s)

/-- Refuse member m, until the next die reset. The lead's enrolled set may change by it (R485). (DEDUCED, log entry 33.) -/
def State.refusePeer (s : State) (m : Fin 4) : State :=
  (s.updPeer m fun p => { p with status := 3, step := 0, enrol := none }).pairsSince s.enrolled

/-- Parts of ENROL_1 and ENROL_2: ENROL_PUB and the ephemeral key; of ENROL_2, the encapsulation, and the attestation with its two
signatures, which the certificates follow. -/
def enrolPubIn (msg : Bytes) : Bytes := slice msg 32 1216
def ephIn (msg : Bytes) : Bytes := slice msg 1248 32
def encapsIn (msg : Bytes) : Bytes := slice msg 1280 1088
def attestLen : Nat := 98 + 96 + 3309

/-- Answer a lead's claim with ENROL_2: a nonce, ENROL_PUB, an ephemeral key, an encapsulation to the lead's key, an attestation over
ENROL_1, and RECOVERY_CERT. -/
def State.answerClaim (s : State) (m : Fin 4) (msg : Bytes) : State :=
  let r := s.drawn 96
  let eph := slice r.1 32 32
  let k := kemEncaps 0x51 (slice (enrolPubIn msg) 32 1184) (slice r.1 64 32)
  let a := r.2.attested (sha3 32 msg)
  let reply := slice r.1 0 32 ++ s.enrolPub ++ ephPub eph ++ k.1 ++ a.1 ++ Config.recoveryCert
  (a.2.updPeer m fun p =>
    { p with status := 1, step := 2, enrol := some ⟨eph, enrolPubIn msg, ephIn msg, msg ++ reply, k.2, s.now⟩ }).enrolSend m (.enrol2 reply)

/-- ENROL_1 arrives (R486): a follower hears a member it lists, and once enrolled only that one, and refuses every other claimant; two
leads refuse each other. (DEDUCED, log entry 33.) -/
def State.claim (s : State) (m : Fin 4) (msg : Bytes) : State :=
  if s.cas.role = .lead || !s.namedPeer m || s.cas.peers[m].status = 3 || s.cas.leader.any (· != m) then s.refusePeer m
  else s.answerClaim m msg

/-- An enrolment message from another member arrives: CTR is 0 (R483). -/
def State.enrolFrame (s : State) (h : CasHead) (type : Nat) (f : State → State) : State :=
  s.arrive h fun s => if h.type.toNat = type ∧ h.ctr = 0 ∧ h.src ≠ s.cas.member then f s else s.dropCas

def execEnrol1 (h : CasHead) (s : State) : Host.Outcome State Fault Refusal :=
  .next (s.enrolFrame h 0x01 fun s => s.claim h.src h.wire)

/-- The checks that each side makes of the other, from the attestation over this challenge and the ENROL_PUB it has received. -/
def State.enrolOk (s : State) (m : Fin 4) (e : EnrolIn) (att challenge pub : Bytes) : Bool :=
  e.certOk && e.sigsOk && slice att 0 32 == challenge && slice att 41 16 == s.cas.prints[m] && slice att 57 32 == digest 0x31 32 pub
    && byteAt att 40 == s.life.fuse.code

/-- A new pair key: its counters start again. -/
def Peer.keyed (p : Peer) (k : Bytes) : Peer :=
  { p with status := 2, key := some k, sent := 0, got := 0, step := 0, free := 0, enrol := none }

/-- The pair key of an enrolment: from both encapsulated secrets, the lead's first, the agreed one and the three messages (R484). -/
def pairKey (ssLead ssFollower agreed msgs : Bytes) : Bytes := sha3 32 (ssLead ++ ssFollower ++ agreed ++ sha3 32 msgs)

/-- What the enrolment key gives of an encapsulation, and the agreement of the ephemeral keys; both operations draw their blinding (R309). -/
def State.enrolSecrets (s : State) (e : Enrol) (ct : Bytes) : (Bytes × Bytes) × State :=
  let p := s.drawn (blindLen 0x5A 32 + blindLen 0x51 64)
  let n := blindLen 0x5A 32
  let k := s.enrolKey.getD []
  ((kemDecaps 0x51 (p.1.drop n) (slice k 32 64) ct, x25519Blind (p.1.take n) e.eph e.epk), p.2)

/-- ENROL_2 arrives at the lead: ENROL_3 is an encapsulation to the follower's key, an attestation over both messages, and RECOVERY_CERT. -/
def State.enrol2 (s : State) (m : Fin 4) (e : EnrolIn) (msg : Bytes) : State :=
  match s.cas.peers[m].enrol with
  | some x =>
    if s.cas.role == .lead && s.cas.peers[m].step == 1 then
      if s.enrolOk m e (slice msg 2368 attestLen) (sha3 32 x.msgs) (enrolPubIn msg) then
        let k := s.enrolSecrets { x with epk := ephIn msg } (encapsIn msg)
        let r := k.2.drawn 32
        let c := kemEncaps 0x51 (slice (enrolPubIn msg) 32 1184) r.1
        let a := r.2.attested (sha3 32 (x.msgs ++ msg))
        let reply := c.1 ++ a.1 ++ Config.recoveryCert
        (((a.2.updPeer m fun p => p.keyed (pairKey k.1.1 c.2 k.1.2 (x.msgs ++ msg ++ reply))).enrolSend m (.enrol3 reply))).sendPairKeys
      else s.refusePeer m
    else s
  | none => s

def execEnrol2 (h : CasHead) (e : EnrolIn) (s : State) : Host.Outcome State Fault Refusal :=
  .next (s.enrolFrame h 0x02 fun s => s.enrol2 h.src e h.wire)

/-- ENROL_3 arrives at the follower, whose lead the sender now is (R486, R487). After its first enrolment it takes no other lead. -/
def State.enrol3 (s : State) (m : Fin 4) (e : EnrolIn) (msg : Bytes) : State :=
  match s.cas.peers[m].enrol with
  | some x =>
    if s.isFollower && s.cas.peers[m].step == 2 then
      if s.cas.leader.all (· == m) && s.enrolOk m e (slice msg 1088 attestLen) (sha3 32 x.msgs) x.pub then
        let k := s.enrolSecrets x (slice msg 0 1088)
        (k.2.updPeer m fun p => p.keyed (pairKey x.ss k.1.1 k.1.2 (x.msgs ++ msg))).updCas fun c => { c with leader := some m, role := .follower }
      else s.refusePeer m
    else s
  | none => s

def execEnrol3 (h : CasHead) (e : EnrolIn) (s : State) : Host.Outcome State Fault Refusal :=
  .next (s.enrolFrame h 0x03 fun s => s.enrol3 h.src e h.wire)

/-- PAIR_KEYS arrives: keys with the other followers; a member that is listed no more is absent. -/
def State.pairKeys (s : State) (members : List (Fin 4)) (keys : List (Fin 4 × Bytes)) : State :=
  s.each (List.finRange 4) fun s m =>
    if m = s.cas.member ∨ s.cas.leader = some m then s
    else match keys.lookup m with
      | some k => s.updPeer m fun p => p.keyed k
      | none => if members.contains m then s else s.updPeer m fun p => if p.status = 3 then p else Peer.reset

def execPairKeys (h : CasHead) (members : List (Fin 4)) (keys : List (Fin 4 × Bytes)) (s : State) :
    Host.Outcome State Fault Refusal :=
  .next (s.onFrame h (.pairKeys members keys) fun s => if s.cas.leader = some h.src then s.pairKeys members keys else s)

/-! ## Heartbeats (R487) -/

/-- Counters of the pair with m have run out: it is to be enrolled again (R483). (DEDUCED, log entry 33.) -/
def State.renew (s : State) (m : Fin 4) : State :=
  if 2 ^ 48 ≤ s.cas.peers[m].sent then s.updPeer m fun p => { p with status := 0, key := none, free := 0 } else s

/-- The lead sends a heartbeat to each enrolled follower. -/
def State.heartbeats (s : State) : State :=
  (s.each s.enrolled fun s m => (s.cascadeSend m .heartbeat).renew m).pairsSince s.enrolled

def execHeartbeatPeriod (s : State) : Host.Outcome State Fault Refusal :=
  .next (if s.pelOn && s.cas.role == .lead then (s.exchange 1 .tick).heartbeats else s)

/-- A heartbeat of the lead is answered, and ends a cut-off. -/
def State.heartbeat (s : State) (m : Fin 4) : State :=
  if s.isFollower && s.cas.leader == some m then (s.updCas fun c => { c with role := .follower }).cascadeSend m .heartbeatAck else s

def execHeartbeat (h : CasHead) (s : State) : Host.Outcome State Fault Refusal :=
  .next (s.protectedFrame h .heartbeat fun s => s.heartbeat h.src)

def execHeartbeatAck (h : CasHead) (s : State) : Host.Outcome State Fault Refusal := .next (s.onFrame h .heartbeatAck id)

/-- Member byte of PEL_LEAD_LOST; 0xFF where no lead has been accepted. -/
def leadByte (l : Option (Fin 4)) : Nat :=
  match l with
  | some m => m.val
  | none => 0xFF

/-- A follower is cut off from its lead. (DEDUCED, log entry 33.) -/
def State.leadLost (s : State) : State :=
  ((s.updCas fun c => { c with role := .cutOff }).cause 20).logEvent 0x0052 0xFF (toLe 1 (leadByte s.cas.leader))

def execPelLeadLost (s : State) : Host.Outcome State Fault Refusal :=
  .next (if s.pelOn && s.cas.role == .follower then (s.exchange 1 .tick).leadLost else s)

/-- The lead marks a member absent; the others get new pair keys (R485). -/
def State.ackLoss (s : State) (m : Fin 4) : State := (s.updPeer m fun _ => Peer.reset).sendPairKeys

def execAckLoss (m : Fin 4) (s : State) : Host.Outcome State Fault Refusal :=
  .next (if s.pelOn && s.cas.role == .lead && s.cas.peers[m].status == 2 then (s.exchange 1 .tick).ackLoss m else s)

/-! ## Forwarded jobs (R320 to R322) -/

/-- Free places of the follower's queue; none while DATA_HALT is set (R457). (DEDUCED, log entry 33.) -/
def State.fwdRoom (s : State) : Nat := if s.cfg.fwdAccept && !s.flt.dataHalt then 2 * s.cfg.fwdEngines - s.cas.fwdIn.length else 0

/-- A follower advertises its capacity to every enrolled member. (DEDUCED, log entry 33.) -/
def State.advertise (s : State) : State :=
  let n := s.fwdRoom
  s.each s.enrolled fun s m => s.cascadeSend m (.capacity n)

def execCapacityAdvert (s : State) : Host.Outcome State Fault Refusal :=
  .next (if s.pelOn && s.cas.role == .follower then (s.exchange 1 .tick).advertise else s)

def execCapacity (h : CasHead) (n : Nat) (s : State) : Host.Outcome State Fault Refusal :=
  .next (s.onFrame h (.capacity n) fun s => (s.updPeer h.src fun p => { p with free := n }).serveWaiting)

/-- Queue a forwarded job, or answer that it cannot run here. (DEDUCED, log entry 33.) -/
def State.takeFwd (s : State) (src : Fin 4) (job : Nat) (w : FwdWork) : State :=
  if s.cas.role = .follower ∧ s.pwr.prep = none ∧ s.fwdRoom ≠ 0 then
    let f : FwdIn := ⟨src, job, w, s.disp.nextJob, none, []⟩
    ((s.updDisp fun d => { d with nextJob := d.nextJob + 1 }).updCas fun c => { c with fwdIn := c.fwdIn ++ [f] }).serveWaiting
  else s.cascadeSend src (.fwdResult job noRun)

def execFwdJob (h : CasHead) (job : Nat) (w : FwdWork) (s : State) : Host.Outcome State Fault Refusal :=
  .next (s.onFrame h (.fwdJob job w) fun s => s.wakeCas.takeFwd h.src job w)

/-- The job that is forwarded to member m under this identity. -/
def State.forwarded (s : State) (m : Fin 4) (job : Nat) : Option Job :=
  (s.job job).filter fun j => j.phase == .forwarded && j.member4 == some m

/-- A result returns: ENGINE_FAULT makes the job run here, another ends it. A late one finds no forwarded job. -/
def State.fwdResult (s : State) (m : Fin 4) (job : Nat) (r : PkOut) : State :=
  match s.forwarded m job with
  | none => s
  | some j =>
    if r.status = .engineFault then s.runLocal job
    else
      let s := s.updJob job fun j => { j with phase := .data }
      (if s.superseded j then s.retire { j with phase := .data } .aborted 0 else s.publicEnd { j with phase := .data } r)

def execFwdResult (h : CasHead) (job : Nat) (r : PkOut) (s : State) : Host.Outcome State Fault Refusal :=
  .next (s.onFrame h (.fwdResult job r) fun s => (s.fwdResult h.src job r).serveWaiting)

/-- Discard a forwarded job, queued or running. -/
def State.fwdCancel (s : State) (m : Fin 4) (job : Nat) : State :=
  let mine (f : FwdIn) : Bool := f.src == m && f.job == job
  let s := s.each (s.cas.fwdRun.filter mine) State.fwdLeave
  s.updCas fun c => { c with fwdIn := c.fwdIn.filter fun f => !mine f }

def execFwdCancel (h : CasHead) (job : Nat) (s : State) : Host.Outcome State Fault Refusal :=
  .next (s.onFrame h (.fwdCancel job) fun s => (s.fwdCancel h.src job).serveWaiting)

/-- FWD_TIMEOUT: no result has come in 2 ms. -/
def State.fwdTimeout (s : State) (id : Nat) : State :=
  match s.job id with
  | some j => if j.phase = .forwarded then s.runLocal id else s
  | none => s

def execFwdTimeout (j : Nat) (s : State) : Host.Outcome State Fault Refusal := .next (s.fwdTimeout j)

/-! ## Slot moves (R154 to R156, R490) -/

/-- The destination's checks of R154. -/
def State.moveFits (s : State) (m : Fin 4) (n : Fin 128) (base quota : Nat) : Bool :=
  let i := s.inst n
  i.state == .configured && i.pelAccept == m.val && i.live.slotBase == base && i.live.slotQuota == quota
    && s.keys.slots.all fun p => !p.2.pinned || p.1 + p.2.run ≤ base || base + quota ≤ p.1

/-- Advance vault counter n to at least v. -/
def State.raiseCounter (s : State) (c : Nat × Nat) : State :=
  if s.vault.counter c.1 < c.2 then s.setCounter c.1 (min c.2 allOnes64) else s

/-- Install one moved slot held: under the number and generation it had, with new shares and the destination's hand. -/
def State.installMoved (s : State) (n : Fin 128) (m : MovedSlot) : State :=
  let hits := (s.keys.slots.filter fun p => p.1 < m.slot + m.run && m.slot < p.1 + p.2.run).map (·.1)
  let s := s.each hits fun s i => s.emptySlot i 5
  let r := s.splitKey (xorB m.shareA m.shareB)
  let s := r.2
  let x : Slot :=
    { owner := n, hand := (s.inst n).hand, usage := m.usage, ktype := m.ktype, csrc := m.csrc, cnum := m.cnum
      fixed := m.fixed, shareA := r.1.1, shareB := r.1.2, run := m.run, pinned := true, depth := m.depth, limit := m.limit
      used := m.used, next := m.next, stop := m.stop, first := m.first, last := m.last, tlsSpent := m.tlsSpent
      root := m.root, test := m.test, sealedOnly := m.sealedOnly, ownerLabel := m.ownerLabel, path := [], used_at := s.keys.clock
      evicting := none, movedIn := true }
  s.updKeys fun k => { k with slots := k.slots ++ [(m.slot, x)], gens := assocSet k.gens m.slot m.gen, clock := k.clock + 1 }

/-- SLOT_INSTALL: the slots are installed held and the source is told, or refused. -/
def State.slotInstall (s : State) (m : Fin 4) (src dst : Fin 128) (base quota : Nat) (counters : List (Nat × Nat))
    (slots : List MovedSlot) : State :=
  if s.moveFits m dst base quota then
    let s := (s.each counters State.raiseCounter).each slots fun s x => s.installMoved dst x
    (s.updInst dst fun i => { i with pelResult := 1, pelPeer := some ⟨m, src, .held⟩ }).cascadeSend m (.slotConfirm src)
  else (s.updInst dst fun i => { i with pelResult := 3 }).cascadeSend m (.slotRefuse src)

def execSlotInstall (h : CasHead) (srcInst dstInst : Fin 128) (base quota : Nat) (counters : List (Nat × Nat))
    (slots : List MovedSlot) (s : State) : Host.Outcome State Fault Refusal :=
  .next (s.onFrame h (.slotInstall srcInst dstInst base quota counters slots) fun s => s.wakeCas.slotInstall h.src srcInst dstInst base quota counters slots)

/-- The open move of instance n with member m, as far as `k`. -/
def State.openMove (s : State) (n : Fin 128) (m : Fin 4) (k : MoveAt) : Option PelMove :=
  (s.inst n).pelPeer.filter fun p => p.member == m && p.at_ == k

/-- The move of instance n is over, with this PEL_RESULT. -/
def State.endMove (s : State) (n : Fin 128) (r : Nat) : State := s.updInst n fun i => { i with pelResult := r, pelPeer := none }

/-- Held slots of instance n serve jobs. -/
def State.releaseHeld (s : State) (n : Fin 128) : State :=
  s.updKeys fun k => { k with slots := k.slots.map fun p => if p.2.owner = n then (p.1, { p.2 with movedIn := false }) else p }

/-- SLOT_COMMIT: the held slots are released, and the destination confirms. (DESIGN CHOICE, log entry 30.) -/
def State.slotCommit (s : State) (m : Fin 4) (n : Fin 128) : State :=
  match s.openMove n m .held with
  | some p => ((s.releaseHeld n).endMove n 2).cascadeSend m (.slotConfirm p.inst)
  | none => s

def execSlotCommit (h : CasHead) (dstInst : Fin 128) (s : State) : Host.Outcome State Fault Refusal :=
  .next (s.onFrame h (.slotCommit dstInst) fun s => s.wakeCas.slotCommit h.src dstInst)

/-- The source empties its pinned slots, which advances their generations, and sends the commit. (DESIGN CHOICE, log entry 30.). (DESIGN CHOICE, log entry 51.) -/
def State.commitMove (s : State) (n : Fin 128) (p : PelMove) : State :=
  ((s.emptySlots (fun x => x.owner == n && x.pinned) 5).updInst n fun i =>
    { i with pelPeer := some { p with at_ := .committed } }).cascadeSend p.member (.slotCommit p.inst)

/-- SLOT_CONFIRM: the answer to the commit ends the move. The answer to the installation is a SLOT_CONFIRM as well, and
makes the source commit. (DESIGN CHOICE, log entry 30.) -/
def State.slotConfirm (s : State) (m : Fin 4) (n : Fin 128) : State :=
  match s.openMove n m .sent, s.openMove n m .committed with
  | some p, _ => s.commitMove n p
  | none, some _ => s.endMove n 2
  | none, none => s

def execSlotConfirm (h : CasHead) (srcInst : Fin 128) (s : State) : Host.Outcome State Fault Refusal :=
  .next (s.onFrame h (.slotConfirm srcInst) fun s => s.wakeCas.slotConfirm h.src srcInst)

/-- SLOT_REFUSE: nothing has moved. -/
def State.slotRefuse (s : State) (m : Fin 4) (n : Fin 128) : State :=
  match s.openMove n m .sent with
  | some _ => s.endMove n 3
  | none => s

def execSlotRefuse (h : CasHead) (srcInst : Fin 128) (s : State) : Host.Outcome State Fault Refusal :=
  .next (s.onFrame h (.slotRefuse srcInst) fun s => s.wakeCas.slotRefuse h.src srcInst)

/-- The move of instance n is open, as far as one of these. -/
def State.moveIs (s : State) (n : Fin 128) (l : List MoveAt) : Bool := (s.inst n).pelPeer.any fun p => l.contains p.at_

/-- SLOT_MOVE_TIMEOUT: no commit has come, and the held slots go. -/
def execSlotMoveTimeout (n : Fin 128) (s : State) : Host.Outcome State Fault Refusal :=
  .next (if s.moveIs n [.held] then ((s.exchange 1 .tick).emptySlots (fun x => x.owner == n && x.movedIn) 5).endMove n 5 else s)

/-- CONFIRM_TIMEOUT: no confirmation has come to the source. Its slots are empty after that, at whichever phase the answer is missing:
after a 4 at the source, a 3 or 5 at the destination means that the keys exist nowhere (R156). (DEDUCED, log entry 30.) -/
def execConfirmTimeout (n : Fin 128) (s : State) : Host.Outcome State Fault Refusal :=
  .next (if s.moveIs n [.sent, .committed] then ((s.exchange 1 .tick).emptySlots (fun x => x.owner == n && x.pinned) 5).endMove n 4
    else s)

end Sys2Proof.Machine
end

