-- ==== Sys2Proof/Machine/EoaService.lean ====
section
/-! DEFINITION. EOA over the network (R356 to R368): which frames of channel 96 are accepted, session openings, protected
requests, and how sessions end. -/

namespace Sys2Proof.Machine

/-! ## Frames (R359, R360) -/

/-- A PDU the block drops, counted (R390). (DEDUCED, log entry 34.) -/
def State.dropPdu (s : State) : State := s.count 0x201A 2

/-- Header fields of a PDU (R356). -/
def pduType (p : Bytes) : Nat := byteAt p 1
def pduLen (p : Bytes) : Nat := le p 2 2
def pduSession (p : Bytes) : Nat := le p 4 4
def pduSeq (p : Bytes) : Nat := le p 8 8

/-- VER and LEN are good; bytes beyond LEN are padding. -/
def pduOk (p : Bytes) : Bool := byteAt p 0 == 1 && decide (16 ≤ pduLen p ∧ pduLen p ≤ 1500 ∧ pduLen p ≤ p.length)

/-- The payload of a CAN FD single frame, with the length escape or without (R361). -/
def singleFrame (data : Bytes) : Option Bytes :=
  let n := byteAt data 0
  if n = 0 then (if byteAt data 1 + 2 ≤ data.length then some (slice data 2 (byteAt data 1)) else none)
  else if n ≤ 7 ∧ n + 1 ≤ data.length then some (slice data 1 n)
  else none

/-- The PDU that a frame carries whole, with its transport: an Ethernet frame addressed to the block (R360), or a single frame of a
binding that is on (R361). (DEDUCED, log entry 34.) -/
def State.pduOf (s : State) (f : EoaIn) : Option (Via × Bytes) :=
  if f.kind = 1 then
    if f.beatOk && decide (64 ≤ f.port ∧ f.port ≤ 95) && f.etherType == s.cfg.eoaEtherType && f.frame.take 6 == s.cfg.eoaMac
        && !allZero s.cfg.eoaMac then
      some (.eth (slice f.frame 6 6) f.tag, f.frame.drop (14 + f.tag.length))
    else none
  else
    match s.bindingOf f with
    | some b => (singleFrame f.frame).map fun p => (.can b, p)
    | none => none

/-- Take a PDU of type t from a frame of channel 96: dropped and counted, or passed on without its padding. A single frame ends an open
reception of its binding (R361). -/
def State.frameIn (s : State) (f : EoaIn) (t : Nat) (use : State → Via → Bytes → State) : State :=
  s.takeFrame f fun s =>
    if f.kind ≠ 1 ∧ f.kind ≠ 2 then s.count 0x201C 2
    else
      match s.pduOf f with
      | none => s.dropPdu
      | some (via, p) =>
        let s := s.endRx via
        if !pduOk p then s.dropPdu else if pduType p = t then use s via (p.take (pduLen p)) else s

/-- COAST ends for work that needs an engine (R359, R468). -/
def State.engineWork (s : State) : State := s.updPwr fun p => { p with coastCause := p.coastCause || p.state == .coast }

/-! ## Sessions -/

/-- Change session k. -/
def State.setSession (s : State) (k : Fin 8) (x : Option Session) : State :=
  s.updEoa fun e => { e with sessions := e.sessions.set k x }

/-- Open sessions, and openings in progress. -/
def State.openCount (s : State) : Nat := (s.eoa.sessions.toList.filter fun x => x.any (·.opened)).length
def State.openingCount (s : State) : Nat := (s.eoa.sessions.toList.filter fun x => x.any (!·.opened)).length

/-- A slot that satisfies p. -/
def State.findSession (s : State) (p : Session → Bool) : Option (Fin 8 × Session) :=
  (List.finRange 8).findSome? fun k => match s.eoa.sessions[k] with
    | some x => if p x then some (k, x) else none
    | none => none

/-- Transport code (R362). -/
def viaCode : Via → Nat
  | .eth _ _ => 1
  | .can _ => 2

/-- Refuse an opening: an ERROR PDU and an event (R367, R394). SESSION is the number that HELLO_REPLY has carried, or 0 (R356). -/
def State.refuseOpening (s : State) (via : Via) (port num : Nat) (st : EStatus) : State :=
  (s.logEvent 0x0009 0xFF (toLe 2 st.code ++ toLe 1 (viaCode via) ++ toLe 1 port)).sendPdu via port (errorPdu st num)

/-- A new opening, before any fragment. -/
def Session.opening (num : Nat) (via : Via) (port now : Nat) : Session :=
  { number := num, opened := false, via := via, port := port, anchor := none, roles := 0, subject := zeros 16, clientEc := []
    clientPq := [], frags := [], nfrag := 0, msgLen := 0, hello := [], reply := [], secret := [], kIn := [], kOut := []
    ivIn := [], ivOut := [], lastSeq := 0, stored := none, inProcess := false, drops := 0, lastTime := now }

/-! ## Fragments (R356) -/

/-- A fragment's fields. -/
def fragNo (p : Bytes) : Nat := byteAt p 16
def fragCount (p : Bytes) : Nat := byteAt p 17
def fragLen (p : Bytes) : Nat := le p 20 4
def fragData (p : Bytes) : Bytes := p.drop 24

/-- The fragment is well formed, for a message of `len` bytes, and agrees with those received. -/
def Session.fragOk (x : Session) (p : Bytes) (len : Nat) : Bool :=
  decide (24 < p.length) && decide (1 ≤ fragCount p ∧ fragCount p ≤ 12) && decide (fragNo p < fragCount p) && allZero (slice p 18 2)
    && fragLen p == len && (x.nfrag == 0 || (x.nfrag == fragCount p && x.msgLen == fragLen p))
    && x.frags.all fun f => f.1 != fragNo p || f.2 == fragData p

/-- The fragment joins the others. -/
def Session.addFrag (x : Session) (p : Bytes) (now : Nat) : Session :=
  { x with nfrag := fragCount p, msgLen := fragLen p, lastTime := now
           frags := assocSet x.frags (fragNo p) (fragData p) }

/-- The whole message once every fragment is there. -/
def Session.message (x : Session) : Option Bytes :=
  if x.frags.length = x.nfrag then some ((List.range x.nfrag).map fun i => (x.frags.lookup i).getD []).flatten else none

/-! ## HELLO (R364 to R367) -/

/-- The time limits of a certificate hold (R364). -/
def State.inTime (s : State) (cert : Bytes) : Bool :=
  if s.pins.tbValid then decide (le cert 8 8 ≤ s.tbSeconds ∧ s.tbSeconds ≤ le cert 16 8) else decide (s.jnl.time ≤ le cert 16 8)

/-- What refuses a complete HELLO, in the order of R367. (DEDUCED, log entry 34.) -/
def State.helloRefused (s : State) (m : Bytes) : Option EStatus :=
  let cert := m.drop 1252
  match s.anchorAt (byteAt cert 2) with
  | none => some .authFail
  | some a =>
    if !(le cert 0 2 == 0x0301 && allZero (slice cert 4 4) && certSigsOk a cert && s.inTime cert && kemKeyOk 0x51 (slice m 68 1184)) then
      some .authFail
    else if byteAt m 32 &&& byteAt cert 3 &&& a.roles = 0 then some .accessDenied
    else if !allZero (slice m 33 3) then some .typeLength
    else none

/-- The block's HELLO_REPLY with the session secret (R365, R366); its operations on private keys draw their blinding (R309). -/
def State.helloReply (s : State) (m : Bytes) : Bytes × Bytes × State :=
  let r := s.drawBytes false 96
  let r := (r.1, r.2.exchange 0 (.random r.1))
  let xk := slice r.1 32 32
  let kem := kemEncaps 0x51 (slice m 68 1184) (slice r.1 64 32)
  let pub := publicOf 0x5A xk
  let head := slice r.1 0 32 ++ pub ++ kem.2 ++ s.cfg.blockCert
  let key := s.eoaKey.getD []
  let sig := r.2.signPair (slice key 0 48) (slice key 48 32) (digest 0x32 48 (m ++ head))
  let z := sig.2.drawBytes false (blindLen 0x5A 32)
  let secret := digest 0x38 32 (kem.1 ++ x25519Blind z.1 xk (slice m 36 32) ++ kem.2 ++ slice m 36 32 ++ pub)
  (head ++ sig.1, secret, z.2)

/-- A complete HELLO is answered or refused. -/
def State.helloDone (s : State) (k : Fin 8) (x : Session) (m : Bytes) : State :=
  let s := s.engineWork.exchange 0 (.tbTime s.pins.tbTime)
  match s.helloRefused m with
  | some st => (s.setSession k none).refuseOpening x.via x.port 0 st
  | none =>
    let cert := m.drop 1252
    let roles := byteAt m 32 &&& byteAt cert 3 &&& ((s.anchorAt (byteAt cert 2)).map (·.roles)).getD 0
    let r := s.helloReply m
    let x := { x with
      frags := [], nfrag := 0, hello := m, reply := r.1, secret := r.2.1, anchor := some (byteAt cert 2), roles := roles
      subject := slice cert 24 16, clientEc := slice cert 40 97, clientPq := slice cert 137 1952 }
    (r.2.2.setSession k (some x)).sendPdus x.via x.port (handshake 0x02 x.number r.1)

/-- A fragment of HELLO joins its opening. -/
def State.helloFrag (s : State) (k : Fin 8) (x : Session) (p : Bytes) : State :=
  if x.fragOk p 6746 then
    let x := x.addFrag p s.now
    let s := (s.setSession k (some x)).count 0x201A 1
    match x.message with
    | none => s
    | some m => if m.length = 6746 then s.helloDone k x m else (s.setSession k none).refuseOpening x.via x.port 0 .typeLength
  else (s.setSession k none).refuseOpening x.via x.port 0 .typeLength

/-- What refuses a new opening at once (R367). (DEDUCED, log entry 34.) -/
def State.openingRefused (s : State) : Option EStatus :=
  if !s.cfg.eoaEnable || s.cfg.blockCert.isEmpty || s.eoaKey.isNone then some .stateConflict
  else if s.cfg.sessionsMax ≤ s.openCount ∨ 2 ≤ s.openingCount then some .stateConflict
  else none

/-- The first fragment of a HELLO: the 16th in any minute is the last that is not dropped (R367). (DEDUCED, log entry 34.) -/
def State.newHello (s : State) (via : Via) (port : Nat) (p : Bytes) : State :=
  let recent := s.eoa.hellos.filter fun t => decide (s.now < t + 60 * 10 ^ 9)
  if 16 ≤ recent.length then s.updEoa fun e => { e with hellos := recent, helloDrops := e.helloDrops + 1 }
  else
    let s := s.updEoa fun e => { e with hellos := recent ++ [s.now] }
    match s.openingRefused, (List.finRange 8).find? fun k => s.eoa.sessions[k].isNone with
    | some st, _ => s.refuseOpening via port 0 st
    | none, none => s.refuseOpening via port 0 .stateConflict
    | none, some k =>
      let n := s.eoa.nextNum
      let s := s.updEoa fun e => { e with nextNum := if n = 0xFFFFFFFF then 1 else n + 1 }
      s.helloFrag k (Session.opening n via port s.now) p

/-- A HELLO PDU: of the opening under way for its source, or of a new one. A HELLO begins with fragment 0: a later fragment without an
opening belongs to one that was refused or dropped, and is dropped. (DEDUCED, log entry 34.) -/
def State.helloIn (s : State) (via : Via) (port : Nat) (p : Bytes) : State :=
  match s.findSession fun x => !x.opened && x.via == via && x.port == port && x.hello.isEmpty with
  | some (k, x) => s.helloFrag k x p
  | none => if s.pwr.prep.isSome || fragNo p != 0 then s.dropPdu else s.newHello via port p

/-! ## FINISH (R365, R366) -/

/-- A value of R366: text, and the context from the transcript hash. -/
def sessionValue (secret hash : Bytes) (text : String) : Bytes := kdf secret (internalLabel 7 (ascii text)) (zeros 32 ++ hash)

/-- The session with its keys, open. -/
def Session.opened_ (x : Session) (finish : Bytes) (now : Nat) : Session :=
  let h := digest 0x32 48 (x.hello ++ x.reply ++ finish)
  { x with opened := true, frags := [], nfrag := 0, hello := [], reply := [], secret := [], lastTime := now
           kIn := sessionValue x.secret h "c2b key", kOut := sessionValue x.secret h "b2c key"
           ivIn := (sessionValue x.secret h "c2b iv").take 12, ivOut := (sessionValue x.secret h "b2c iv").take 12 }

/-- A complete FINISH opens the session, or refuses it. -/
def State.finishDone (s : State) (k : Fin 8) (x : Session) (m : Bytes) : State :=
  let s := s.engineWork
  let refuse (st : EStatus) : State := (s.setSession k none).refuseOpening x.via x.port x.number st
  if m.length ≠ 3405 then refuse .typeLength
  else if s.cfg.sessionsMax ≤ s.openCount then refuse .stateConflict
  else if !sigsOk x.clientEc 0x49 x.clientPq (digest 0x32 48 (x.hello ++ x.reply)) (m.take 96) (m.drop 96) then refuse .authFail
  else
    let x := x.opened_ m s.now
    (s.setSession k (some x)).sendPdu x.via x.port
      (x.protect 0x04 0 (toLe 1 x.roles ++ zeros 3 ++ toLe 4 s.cfg.idleLimit))

/-- A FINISH PDU. (DEDUCED, log entry 34.) -/
def State.finishIn (s : State) (via : Via) (port : Nat) (p : Bytes) : State :=
  match s.findSession fun x => !x.opened && x.number == pduSession p && !x.hello.isEmpty && x.via == via && x.port == port with
  | none => s.dropPdu
  | some (k, x) =>
    if x.fragOk p 3405 then
      let x := x.addFrag p s.now
      let s := (s.setSession k (some x)).count 0x201A 1
      match x.message with
      | none => s
      | some m => s.finishDone k x m
    else (s.setSession k none).refuseOpening x.via x.port x.number .typeLength

/-! ## REQUEST and CLOSE (R357, R368) -/

/-- A protected PDU that is dropped counts against its session. -/
def State.dropProtected (s : State) (k : Fin 8) (x : Session) : State :=
  (s.setSession k (some { x with drops := x.drops + 1 })).dropPdu

/-- One operation record (R357); none where the body ends first. -/
def takeOp (b : Bytes) : Option (Op × Bytes) :=
  let n := le b 6 2
  if b.length < 12 + n then none
  else
    let index := le b 2 2
    let sub := byteAt b 1
    let data := slice b 12 n
    let fl := byteAt b 4
    let first := bit fl 0
    let req : DReq :=
      match byteAt b 0 with
      | 1 => named index sub .read
      | 2 => named index sub (.write · data)
      | 3 => named index sub (.segWrite · first (bit fl 1) (le b 8 4) data)
      | 4 => named index sub (.segRead · first (le b 8 4))
      | 5 => .abort
      | _ => .bad .range
    some (⟨index, sub, byteAt b 0 == 2, if 4 ≤ fl ∨ byteAt b 5 ≠ 0 then .res req else req⟩, b.drop (12 + n))

/-- n operation records that fill a body. -/
def takeOps : Nat → Bytes → Option (List Op)
  | 0, b => if b.isEmpty then some [] else none
  | n + 1, b =>
    match takeOp b with
    | some (o, rest) => (takeOps n rest).map (o :: ·)
    | none => none

/-- The batch of a REQUEST body, or the status that the whole batch ends with. (DEDUCED, log entry 34.) -/
def parseBatch (k : Fin 8) (num seq : Nat) (b : Bytes) : Except EStatus Batch :=
  let n := byteAt b 0
  if b.length < 4 ∨ n = 0 ∨ 32 < n then .error .typeLength
  else
    match takeOps n (b.drop 4) with
    | none => .error .typeLength
    | some l => if 2 ≤ byteAt b 1 ∨ !allZero (slice b 2 2) then .error .range else .ok ⟨k, num, seq, n, byteAt b 1 == 1, l, [], none⟩

/-- An accepted REQUEST joins what waits for the service. -/
def State.acceptRequest (s : State) (k : Fin 8) (num seq : Nat) (body : Bytes) : State :=
  match parseBatch k num seq body with
  | .ok b => (s.enqueue (.batch b)).serveDict
  | .error st => (if st = .typeLength then s.dropOpen (.session k) else s).respond k num seq (responseBody (byteAt body 0) (bit (byteAt body 1) 0) st 0 [])

/-- Session x after it has accepted SEQ q from a source. -/
def Session.accept (x : Session) (via : Via) (port q now : Nat) : Session :=
  { x with via := via, port := port, lastSeq := q, lastTime := now, stored := none, inProcess := true }

/-- The session a protected PDU names, once its tag verifies; dropped otherwise. -/
def State.protectedIn (s : State) (p : Bytes) (use : State → Fin 8 → Session → Bytes → State) : State :=
  match s.findSession fun x => x.opened && x.number == pduSession p with
  | none => s.dropPdu
  | some (k, x) =>
    match x.unprotect p with
    | none => s.dropProtected k x
    | some body => use s k x body

/-- A REQUEST PDU (R368). -/
def State.requestIn (s : State) (via : Via) (port : Nat) (p : Bytes) : State :=
  s.protectedIn p fun s k x body =>
    let q := pduSeq p
    if q = x.lastSeq + 1 ∧ !x.inProcess then
      let s := s.count 0x201A 1
      if 2 ^ 32 - 1 < q then s.closeSession k
      else (s.setSession k (some (x.accept via port q s.now))).acceptRequest k x.number q body
    else if q = x.lastSeq ∧ (x.inProcess ∨ x.stored.isSome) then
      let s := (s.setSession k (some { x with lastTime := s.now })).count 0x201A 1
      match x.stored with
      | some r => s.sendPdu x.via x.port r
      | none => s
    else s.dropProtected k x

/-- A CLOSE PDU: answered with CLOSE at the same SEQ, then the keys are erased. -/
def State.closeIn (s : State) (via : Via) (port : Nat) (p : Bytes) : State :=
  s.protectedIn p fun s k x _ =>
    let q := pduSeq p
    if q = x.lastSeq + 1 ∧ !x.inProcess then
      let s := s.count 0x201A 1
      if 2 ^ 32 - 1 < q then s.closeSession k else (s.sendPdu via port (x.protect 0x1F q [])).closeSession k
    else s.dropProtected k x

/-! ## Rows -/

def execHello (f : EoaIn) (s : State) : Host.Outcome State Fault Refusal := 
  .next (s.frameIn f 0x01 fun s via p => s.helloIn via f.port p)
def execFinish (f : EoaIn) (s : State) : Host.Outcome State Fault Refusal := 
  .next (s.frameIn f 0x03 fun s via p => s.finishIn via f.port p)
def execRequest (f : EoaIn) (s : State) : Host.Outcome State Fault Refusal := 
  .next (s.frameIn f 0x10 fun s via p => s.requestIn via f.port p)
def execClose (f : EoaIn) (s : State) : Host.Outcome State Fault Refusal := 
  .next (s.frameIn f 0x1F fun s via p => s.closeIn via f.port p)

/-- A PDU that has come whole over a binding (R361). -/
def State.pduIn (s : State) (b : Fin 4) (p : Bytes) : State :=
  let port := byteAt s.cfg.canBinds[b] 0
  if !pduOk p then s.dropPdu
  else
    let q := p.take (pduLen p)
    match pduType p with
    | 0x01 => s.helloIn (.can b) port q
    | 0x03 => s.finishIn (.can b) port q
    | 0x10 => s.requestIn (.can b) port q
    | 0x1F => s.closeIn (.can b) port q
    | _ => s

/-- CONSECUTIVE_FRAME. -/
def execConsecutiveFrame (f : EoaIn) (s : State) : Host.Outcome State Fault Refusal :=
  .next (s.canFrame f 2 fun s b data =>
    match s.canNextIn b data with
    | (some p, t) => t.pduIn b p
    | (none, t) => t)

/-- SESSION_DROP_LIMIT: after 16 drops the session closes. -/
def execSessionDropLimit (k : Fin 8) (s : State) : Host.Outcome State Fault Refusal :=
  .next (if s.eoa.sessions[k].any fun x => x.opened && decide (16 ≤ x.drops) then s.closeSession k else s)

/-- OPENING_IDLE: an opening idle for 10 s is dropped without an answer, and counted among the dropped PDUs (R367). (DEDUCED, log entry 34.) -/
def execOpeningIdle (k : Fin 8) (s : State) : Host.Outcome State Fault Refusal :=
  .next (if s.eoa.sessions[k].any fun x => !x.opened then ((s.exchange 0 .tick).closeSession k).dropPdu else s)

/-- IDLE_LIMIT: no PDU has been accepted for IDLE_LIMIT seconds (R368). -/
def execIdleLimit (k : Fin 8) (s : State) : Host.Outcome State Fault Refusal :=
  .next (if s.eoa.sessions[k].any fun x => x.opened then (s.exchange 0 .tick).closeSession k else s)

end Sys2Proof.Machine
end

