-- ==== Sys2Proof/Machine/Power.lean ====
section
/-! DEFINITION. Power states and resets (R47, R54, R55, R80 to R82, R466 to R473): die reset, power loss, the always-on
domain, COAST, and the FREEWHEEL preparation with its abandonment. -/

namespace Sys2Proof.Machine

/-! ## Die reset and power loss -/

/-- DIE_RST_N_ASSERT. -/
def execDieRstNAssert (s : State) : Host.Outcome State Fault Refusal := .next (if s.pwr.dieReset then s else s.dieReset)

/-- Rails and clocks are no longer in range. -/
def State.railsDown (s : State) : State := s.updPins fun p => { p with pmRailsOk := false, pmClksOk := false }

/-- POWER_LOSS: VDD_CORE removed without PM_DOWN_ACK, or PM_CLKS_OK fallen, in RUN or COAST. In FREEWHEEL VDD_CORE may
be removed. -/
def execPowerLoss (s : State) : Host.Outcome State Fault Refusal :=
  .next (if s.pwr.state = .freewheel ∨ s.pwr.state = .off then s.railsDown else s.losePower)

/-- VDD_AON_LOST: OFF (R466), the outputs of the always-on domain at their absent levels (R47), its retention gone. PM_STATE_REQ is not
driven (`State.pmStateReqOut`); its latch keeps the level it takes at AON_POR_N. -/
def State.goOff (s : State) : State :=
  let s := s.losePower
  { s with
    pins := { s.pins with pmStateReq := 0b10#2, pmDownAck := false, wkAck := false, casBypass := true }
    pwr := { s.pwr with state := .off, retained := none, wakeInReset := false } }

def execVddAonLost (s : State) : Host.Outcome State Fault Refusal := .next (if s.pwr.state = .off then s else s.goOff)

/-- Inputs configured active high. -/
def Tamper.highMask (t : Tamper) : BitVec 8 :=
  BitVec.ofNat 8 ((List.finRange 8).map fun i => if t.cfg[i].high then 2 ^ i.val else 0).sum

/-- AON_POR_N_RELEASE (R54, R473): the sentry starts on its RC oscillator, WAKE_STATUS counts from zero, tamper inputs take
their defaults (R74), active low, so that a line of an input that was active high now counts the other way round, while the latches that VBAT
kept stay (R76); S0_SLEPT is clear (R400). An input that stands at its active level is caught (R74). (DEDUCED, log entry 28.) -/
def State.aonStart (s : State) : State :=
  let s := { s with
    sentry := { Sentry.reset with late := s.sentry.late.filter fun e => e.code == 0x0002 }
    tamper := { s.tamper with cfg := Tamper.reset.cfg }
    pins := { s.pins with pmStateReq := 0b10#2, pmDownAck := false, wkAck := false, tmpLevel := s.pins.tmpLevel ^^^ s.tamper.highMask }
    jnl := { s.jnl with s0Slept := false }
    cfg := Cfg.default
    cnt := { s.cnt with now := s.cnt.now.filter fun p => p.1 / 256 != 0x2018 }
    pwr := { s.pwr with state := .run } }
  s.each ((List.finRange 8).filter fun i => s.pins.tmpLevel &&& inputBit i != 0#8) State.catchInput

def execAonPorNRelease (s : State) : Host.Outcome State Fault Refusal := .next (if s.pwr.state = .off then s.aonStart else s)

/-- CLOCK_SCLK_ABSENT (R54): the sentry stays on its RC oscillator; logged at the next RUN, with its cause. (DEDUCED, log entry 28.) -/
def State.sclkAbsent (s : State) : State :=
  let s := (s.updSentry fun x => { x with sclkAbsent := true }).logRun 0x0010 []
  if s.alive && s.pwr.state == .run then s.cause 19 else s

def execClockSclkAbsent (s : State) : Host.Outcome State Fault Refusal :=
  .next (if s.pwr.state != .off && s.sentry.onRc && !s.sentry.sclkAbsent then s.sclkAbsent else s)

/-- SCLK_IN_EDGES (R54): the sentry runs on the crystal. -/
def execSclkInEdges (s : State) : Host.Outcome State Fault Refusal :=
  .next (if s.pwr.state != .off && !s.sentry.sclkAbsent then s.updSentry fun x => { x with onRc := false } else s)

/-! ## COAST (R467, R468) -/

/-- No dictionary request or transfer is in process. -/
def State.dictIdle (s : State) : Bool :=
  s.dict.commit.isNone && s.dict.appendBy.isNone && s.dict.batch.isNone && s.dict.waiting.isEmpty && s.dict.transfers.isEmpty
    && s.jnl.updOpen.isNone

/-- No ring or direct-feed session has work to do. -/
def State.ringsIdle (s : State) : Bool :=
  allSq.all (fun g => (s.sq g).state != .draining && (s.sq g).state != .deferred)
    && allCq.all (fun q => (s.cq q).counted == 0 && !(s.cq q).timer) && allInst.all fun n => !(s.inst n).df.running

/-- No TC SQ and no TC window is enabled. -/
def State.noTc (s : State) : Bool :=
  s.cfg.windows.toList.all (fun w => !w.on) && allSq.all fun g => (s.sq g).state != .enabled
    || match (s.sq g).owner with
      | some n => !(s.inst n).isTc
      | none => true

/-- No forwarded job is here and no slot move is open. -/
def State.pelIdle (s : State) : Bool := s.cas.fwdIn.isEmpty && s.cas.fwdRun.isEmpty && allInst.all fun n => (s.inst n).pelPeer.isNone

/-- No operation of a card slot is under way. -/
def State.cardsIdle (s : State) : Bool :=
  s.card.append.isNone && s.card.init.isNone && s.jnl.inFlight.isNone && s.jnl.s0Init.isNone

/-- The conditions of R467 hold now. -/
def State.quiet (s : State) : Bool :=
  s.alive && s.pwr.state == .run && s.pwr.prep.isNone && s.cfg.coastAfter != 0 && s.jobs.isEmpty
    && allInst.all (fun n => (s.inst n).outstanding == 0) && s.dictIdle && s.cardsIdle && s.ringsIdle && s.noTc && s.pelIdle

/-- The block may start for FREEWHEEL by itself once this has lasted (R469). -/
def State.restful (s : State) : Bool :=
  s.alive && s.pwr.state == .coast && s.pwr.prep.isNone && s.cfg.freewheelAfter != 0 && s.quietInsts

/-- The conditions of R467, in COAST those of R469, have lasted for d ns: the tick sees each of them begin and end (DEDUCED, log entry 28). -/
def State.calmFor (s : State) (d : Nat) : Bool := s.pwr.calmSince.any fun t => decide (t + d ≤ s.now)

/-- Since when the conditions have held, one nanosecond later. -/
def State.calmNext (s : State) : Option Nat := if s.quiet || s.restful then s.pwr.calmSince.or (some s.now) else none

/-- R467: the conditions have held for COAST_AFTER microseconds, and every poll in flight has returned. -/
def State.coastReady (s : State) : Bool := s.quiet && s.calmFor (s.cfg.coastAfter * 1000) && s.fab.reads.isEmpty

/-- COAST: an interrupt presented and not yet taken waits for RUN, since IRQ_VALID is low (R47), and the card clocks stop (R27). (DEDUCED, log entry 28.) -/
def State.enterCoast (s : State) : State :=
  State.setClocks { s with
    pins := { s.pins with pmStateReq := 0b01#2 }
    pwr := { s.pwr with state := .coast, coastCause := false, coastSince := some s.now, calmSince := some s.now }
    irq := ⟨none, s.irq.shown.toList ++ s.irq.waiting⟩ }

def execCoastEntry (s : State) : Host.Outcome State Fault Refusal := .next (if s.coastReady then s.enterCoast else s)

/-- Every enabled SQ is polled at once. -/
def State.pollAll (s : State) : State := s.each allSq fun s g => s.pollDue g

/-- Back in RUN (R468): what waited for it is issued or logged, every enabled SQ is polled, forwarded jobs start. -/
def State.leaveCoast (s : State) : State :=
  let s := { s with
    pins := { s.pins with pmStateReq := 0b10#2 }
    pwr := { s.pwr with state := .run, coastCause := false, coastSince := none, calmSince := none } }
  (s.updIrq Irq.present).setClocks.flushLate.sendWaiting.pollAll.serveWaiting

/-! ## Preparing FREEWHEEL (R469) -/

/-- Slot 1 (R410): an append in process goes on; else the removal sequence runs, where one is not under way and a card may be there. -/
def State.prepareCard (s : State) : State :=
  if s.card.append.isNone && s.card.state != .empty && s.card.state != .powerOff && s.card.state != .disabled then s.removeCard .powerOff
  else s

/-- Steps 1 and 2: fetching stops, EOA sessions close, slot 1 follows R410; queued forwarded jobs are answered (R489). -/
def State.prepare (s : State) (byPin : Bool) : State :=
  let s := s.updPwr fun p => { p with prep := some ⟨byPin, false, false, []⟩ }
  s.closeSessions.prepareCard.answerQueued

/-- A rise of PM_DOWN_REQ starts the preparation, or takes over one that the block has started (R80, R81). (DEDUCED, log entry 28.) -/
def State.downReq (s : State) : State :=
  let s := s.updPins fun p => { p with pmDownReq := true }
  if !s.alive then s
  else match s.pwr.prep with
    | none => s.prepare true
    | some p => s.updPwr fun q => { q with prep := some { p with byPin := true } }

/-- PM_DOWN_REQ was raised during start-up: the preparation starts now that the block runs (R80). (DEDUCED, log entry 28.) -/
def State.downDue (s : State) : State := if s.alive && s.pins.pmDownReq && s.pwr.prep.isNone then s.prepare true else s

def execPmDownReq (s : State) : Host.Outcome State Fault Refusal := .next s.downReq

/-- FREEWHEEL_AFTER: the block starts by itself, after FREEWHEEL_AFTER seconds in COAST (R469). -/
def State.mayFreewheel (s : State) : Bool := s.restful && s.calmFor (s.cfg.freewheelAfter * 10 ^ 9)

def execFreewheelAfter (s : State) : Host.Outcome State Fault Refusal := .next (if s.mayFreewheel then s.prepare false else s)

/-- Abandon one job without a hand change: it issues no further write and completes only if the power-down is undone. -/
def State.holdJob (s : State) (j : Job) : State :=
  ((s.freeUnits j).cancelFwd j).updJob j.id fun k => { k with phase := .draining, engine := none, pages := 0 }

/-- FREEWHEEL_JOB_LIMIT: jobs that still run after 10 ms are abandoned. -/
def State.limitJobs (s : State) (p : Prep) : State :=
  let l := s.jobs.filter fun j => j.ending.isNone
  (s.each l State.holdJob).updPwr fun q => { q with prep := some { p with jobsOver := true, abandoned := l.map (·.id) } }

def execFreewheelJobLimit (s : State) : Host.Outcome State Fault Refusal :=
  .next (match s.pwr.prep with
    | some p => if p.jobsOver then s else s.limitJobs p
    | none => s)

/-- Step 3, once the held events are committed: half-sector 0 (R423). -/
def State.prepJournal (s : State) : State := s.writeHalf0

/-- Step 4: slot 0 sleeps (R400). It has ended every write by then. -/
def State.prepSlot0 (s : State) : State :=
  if s.jnl.s0State = .ready then
    let s := s.s0Send [⟨false, 7, 0⟩, ⟨false, 5, 0x00018000⟩]
    ((s.updJnl fun j => { j.s0Ended with s0State := .sleep, s0Slept := true }).updPins fun p => { p with s0Pwr := false }).setClocks
  else s

/-- Step 5. -/
def State.prepKeys (s : State) : State := s.eraseKeys 5

/-- What step 6 retains (R44, R440). -/
def State.toRetain (s : State) : Option Retained :=
  if s.jnl.updState = .staged ∧ s.cfg.updAtWake then none
  else
    let b := s.jnl.runBytes
    some ⟨b.take 1152, (sectionPlain b 0).getD [], s.life.fwMeasure, s.life.fwSvn, s.jnl.runImage, s.jnl.pseq⟩

/-- An answer of R489 has not yet left the block: its frame waits, or is not acknowledged. One that no link can carry keeps nothing. -/
def State.answering (s : State) : Bool :=
  let answer (f : CasOut) : Bool := f.body.code == 0x21
  s.cas.held.any (fun f => answer f && (s.sideFor f.dst).isSome) || s.cas.out[0].any answer || s.cas.out[1].any answer

/-- Steps 1 and 2 are over: no job runs, no append, no journal commit and no initialisation of slot 0 is under way. A follower's answers
are out (R489). -/
def State.prepOver (s : State) (p : Prep) : Bool :=
  (p.jobsOver || s.jobs.isEmpty) && !s.answering && s.card.append.isNone && s.dict.commit.isNone && s.jnl.inFlight.isNone && s.jnl.s0Init.isNone

/-- What the SRAM of the core held is lost (R44): entry cache, overflow areas, contexts, staging, tandem memories and the edge unit's
queue. -/
def State.loseMemory (s : State) : State :=
  { s with
    jobs := [], fab := { Fab.reset with nextId := s.fab.nextId }
    insts := s.insts.map fun i => { i with df := i.df.idle }
    sqs := s.sqs.map fun q => { q.letGo with slice := [], seen := [], full := none, bad := none, reading := none }
    cqs := s.cqs.map fun c => { c with overflow := [], reserved := 0 }
    units := { s.units with eng := s.units.eng.map fun g => { g with contexts := [], serving := none, newest := [], loaded := none, pages := 0 } }
    dict := Dict.reset, eoa := Eoa.reset, jnl := { s.jnl with updOpen := none }
    cas := { s.cas with out := .replicate 2 [], held := [], fwdIn := [], fwdRun := [] }
    edge := { s.edge with queue := [], lanes := .replicate 8 none, verdicts := [] }
    flt := { s.flt with tandems := s.flt.tandems.map fun t => { t with log := [] } } }

/-- Outputs in FREEWHEEL (R47): those of the core at their reset values. -/
def Pins.freewheel (p : Pins) (byPin wake : Bool) : Pins :=
  { p with pmDownAck := byPin, casBypass := true, pmStateReq := if wake then 0b10#2 else 0b00#2, kbZeroise := true, kb := none
           s0Pwr := false, s0RstN := false, s0Clk := false, s1Pwr := false, s1Vsel := false, s1Clk := false, dbgPermit := false
           tgtRsp := false, tgtErr := false, tgtRdata := 0#64 }

/-- Step 7: FREEWHEEL. A valid wake frame during the preparation asks for RUN at once (R470). The core's accesses, jobs and interrupts
are gone. (DEDUCED, log entry 28.) -/
def State.freewheel (s : State) (p : Prep) : State :=
  let s := s.loseMemory
  { s with
    irq := ⟨none, []⟩, pins := s.pins.freewheel p.byPin p.wake
    pwr := { s.pwr with state := .freewheel, prep := none, retained := s.toRetain, coastCause := false, coastSince := none, calmSince := none } }

/-- Steps 3 to 7. -/
def State.enterFreewheel (s : State) (p : Prep) : State := s.prepareCard.prepJournal.prepSlot0.prepKeys.freewheel p

/-- Step 3 has nothing left to commit: what may still be committed goes out first. -/
def State.committed (s : State) : Bool := !s.eventsReady && !s.recsReady

/-- FREEWHEEL_ENTRY: the held events are committed, group by group, and then the preparation goes to its end. An entry that the block
started itself does not go on past a cause of R468, which abandons it (R469). -/
def execFreewheelEntry (s : State) : Host.Outcome State Fault Refusal :=
  .next (match s.pwr.prep with
    | some p =>
      if s.prepOver p && (p.byPin || !s.pwr.coastCause) then (if s.committed then s.enterFreewheel p else s.ownWrites) else s
    | none => s)

/-! ## Abandoning it (R81, R82) -/

/-- A job abandoned in step 1 completes ABORTED with the bytes released, once its writes have their responses. -/
def State.abortHeld (s : State) (ids : List Nat) : State :=
  let js := s.jobs.filter fun j => ids.contains j.id
  let s := s.each js fun s j => s.updJob j.id fun k => { k with ending := some (.aborted, k.released) }
  s.each (js.map (·.chain)).eraseDups fun s c => s.settleAbandoned c

/-- Slot 0 wakes again by the awake path, and RPMB is checked (R402); where it does not answer, its initialisation begins (R400).
(DEDUCED, log entry 28.) -/
def State.wakeSlot0 (s : State) (x : S0In) : State :=
  if s.jnl.s0State = .sleep then
    let s := s.s0Send x.awakeCmds
    let s := (s.updPins fun p => { p with s0Pwr := true, s0RstN := true })
    if x.awake then (s.slot0Ready { x with cid := s.jnl.s0Cid, capacity := s.jnl.s0Cap }).rpmbCheck
    else (s.slot0Init x).updJnl fun j => { j with s0Waits := true }
  else s

/-- The steps that have run when the abandonment comes: 3 to 6 only once steps 1 and 2 are over. (DEDUCED, log entry 28.) -/
def State.ranSteps (s : State) (p : Prep) (reached : Nat) : State :=
  if reached < 3 ∨ s.prepOver p = false ∨ s.committed = false then s
  else
    let s := s.prepareCard.prepJournal
    let s := if 4 ≤ reached then s.prepSlot0 else s
    if 5 ≤ reached then s.prepKeys else s

/-- Undo steps 1 and 2 by the table of R82. (DEDUCED, log entry 28.) -/
def State.endPrep (s : State) (p : Prep) : State :=
  let s := (s.abortHeld p.abandoned).updPwr fun q => { q with prep := none }
  let s := if s.card.state = .powerOff ∧ s.cfg.s1Enable then s.debounce else s
  s.pollAll.serveWaiting.serveDict

/-- Undo the steps that have run, with slot 0 answering as x. -/
def State.undoPrep (s : State) (p : Prep) (x : S0In) : State := (s.wakeSlot0 x).endPrep p

/-- A fall of PM_DOWN_REQ before PM_DOWN_ACK, with `reached` steps run. (DEDUCED, log entry 28.) -/
def State.downFall (s : State) (reached : Nat) (x : S0In) : State :=
  let s := s.updPins fun p => { p with pmDownReq := false }
  match s.pwr.prep with
  | some p => if p.byPin then (s.ranSteps p reached).undoPrep p x else s
  | none => s

def execPmDownReqFall (reached : Fin 7) (s0 : S0In) (s : State) : Host.Outcome State Fault Refusal := .next (s.downFall reached.val s0)

/-- COAST_EXIT: a cause of R468 has arrived. It abandons a preparation that the block started, before slot 0 sleeps, and waits behind one
that PM_DOWN_REQ started. (DEDUCED, log entry 28.) -/
def State.coastExit (s : State) : State :=
  if s.alive && s.pwr.state == .coast && s.pwr.coastCause then
    match s.pwr.prep with
    | none => s.leaveCoast
    | some p => if p.byPin then s else (s.endPrep p).leaveCoast
  else s

def execCoastExit (s : State) : Host.Outcome State Fault Refusal := .next s.coastExit

end Sys2Proof.Machine
end

