-- ==== Sys2Proof/Machine/Registers.lean ====
section
/-! DEFINITION. The register window as a whole (R60, R61, R136, R290, R327, R347): which register stands at an offset,
what a write to it does, and what a read of it returns. REGISTER_WRITE stands for both: the table has no row for a read
(DESIGN CHOICE, log entry 20). -/

namespace Sys2Proof.Machine

/-- The registers of the window. -/
inductive Reg where
  | ident
  | mbReq (w : Who) | mbRsp (w : Who) | mbXfer (w : Who)
  | mbBuf (w : Who) (k : Nat)            -- doubleword k of the buffer
  | snapCtl | tableFence | faultSummary | faultClear | tamperStatus | poolA | poolB | poolShort
  | rtAddr (e : Fin 1024) | rtAttr (e : Fin 1024) | rtLabel (e : Fin 1024) | rtRes
  | instId (n : Fin 128) | instStatus (n : Fin 128) | instErr (n : Fin 128)
  | inval (n : Fin 128) | invalStatus (n : Fin 128) | fence (n : Fin 128)
  | mirror (n : Fin 128) (i : Fin 16) | head (n : Fin 128) (j : Fin 8) | arm (n : Fin 128) (j : Fin 8)
  | dfCtx (n : Fin 128) | dfStart (n : Fin 128) | dfData (n : Fin 128) | dfLast (n : Fin 128)
  | dfExpect (n : Fin 128) (w : Fin 8) | dfResult (n : Fin 128) (w : Fin 8)
  | window (n : Fin 128) (k : Nat)       -- doubleword k of the instance counter window
  deriving DecidableEq, Repr

/-- The register at an offset of instance page n (R136, R290, R347). -/
def pageReg (n : Fin 128) (o : Nat) : Option Reg :=
  if o = 0x000 then some (.instId n)
  else if o = 0x008 then some (.instStatus n)
  else if o = 0x010 then some (.instErr n)
  else if o = 0x020 then some (.inval n)
  else if o = 0x028 then some (.invalStatus n)
  else if o = 0x040 then some (.fence n)
  else if 0x080 ≤ o ∧ o < 0x100 then some (.mirror n (Fin.ofNat 16 ((o - 0x080) / 8)))
  else if 0x100 ≤ o ∧ o < 0x180 then
    some (if o % 16 < 8 then .head n (Fin.ofNat 8 ((o - 0x100) / 16)) else .arm n (Fin.ofNat 8 ((o - 0x100) / 16)))
  else if o = 0x200 then some (.dfCtx n)
  else if o = 0x208 then some (.dfStart n)
  else if o = 0x210 then some (.dfData n)
  else if o = 0x218 then some (.dfLast n)
  else if 0x240 ≤ o ∧ o < 0x280 then some (.dfExpect n (Fin.ofNat 8 ((o - 0x240) / 8)))
  else if 0x280 ≤ o ∧ o < 0x2C0 then some (.dfResult n (Fin.ofNat 8 ((o - 0x280) / 8)))
  else if o = 0x400 then some (.mbReq (.inst n))
  else if o = 0x408 then some (.mbRsp (.inst n))
  else if o = 0x410 then some (.mbXfer (.inst n))
  else if 0x480 ≤ o ∧ o < 0x500 then some (.mbBuf (.inst n) ((o - 0x480) / 8))
  else if 0x800 ≤ o then some (.window n ((o - 0x800) / 8))
  else none

/-- The register at an offset of the window, none where nothing is mapped. `o` is a multiple of 8. -/
def regAt (o : Nat) : Option Reg :=
  if o = 0x0_0000 then some .ident
  else if o = 0x0_1000 then some (.mbReq .mgr)
  else if o = 0x0_1008 then some (.mbRsp .mgr)
  else if o = 0x0_1010 then some (.mbXfer .mgr)
  else if 0x0_1800 ≤ o ∧ o < 0x0_2000 then some (.mbBuf .mgr ((o - 0x0_1800) / 8))
  else if o = 0x0_2000 then some .snapCtl
  else if o = 0x0_2040 then some .tableFence
  else if o = 0x0_2080 then some .faultSummary
  else if o = 0x0_2088 then some .faultClear
  else if o = 0x0_2090 then some .tamperStatus
  else if o = 0x0_2100 then some .poolA
  else if o = 0x0_2108 then some .poolB
  else if o = 0x0_2110 then some .poolShort
  else if 0x4_0000 ≤ o ∧ o < 0x4_8000 then
    let e := Fin.ofNat 1024 ((o - 0x4_0000) / 32)
    some (if o % 32 < 8 then .rtAddr e else if o % 32 < 16 then .rtAttr e else if o % 32 < 24 then .rtLabel e else .rtRes)
  else if 0x8_0000 ≤ o ∧ o < 0x10_0000 then pageReg (Fin.ofNat 128 ((o - 0x8_0000) / 0x1000)) (o % 0x1000)
  else none

/-- The instance whose page holds a register; none for the manager's pages. -/
def Reg.page : Reg → Option (Fin 128)
  | .instId n | .instStatus n | .instErr n | .inval n | .invalStatus n | .fence n | .mirror n _ | .head n _ | .arm n _
  | .dfCtx n | .dfStart n | .dfData n | .dfLast n | .dfExpect n _ | .dfResult n _ | .window n _
  | .mbReq (.inst n) | .mbRsp (.inst n) | .mbXfer (.inst n) | .mbBuf (.inst n) _ => some n
  | _ => none

/-- The mailbox that a register belongs to. -/
def Reg.box : Reg → Option Who
  | .mbReq w | .mbRsp w | .mbXfer w | .mbBuf w _ => some w
  | _ => none

/-- The access is naturally aligned and of one width (R60). -/
def fits (a : Tgt) (addr : Nat) : Bool := a.width != .other && addr % 8 == if a.width = .high then 4 else 0

/-! ## Mailboxes (R347 to R350) -/

/-- The request that a value of MB_REQ makes (R348). -/
def Mailbox.request (m : Mailbox) (v : Nat) : DReq :=
  let index := bits v 31 16
  let sub := bits v 15 8
  let data := padTo (bits v 43 32) m.buffer
  match bits v 2 0 with
  | 1 => named index sub .read
  | 2 => named index sub (.write · data)
  | 3 => named index sub (.segWrite · (bit v 3) (bit v 4) (if bit v 3 then m.total else 0) data)
  | 4 => named index sub (.segRead · (bit v 3) 0)
  | 5 => .abort
  | _ => .bad .range

/-- A write of MB_REQ (R347). (DEDUCED, log entry 23.) -/
def State.writeMbReq (s : State) (w : Who) (v : Word) : State :=
  match s.dict.box w with
  | some m => s.startRequest w (m.request v.toNat)
  | none => s

/-- The bytes of doubleword k that the access covers take those of v. -/
def patch (a : Tgt) (k : Nat) (v : Word) (b : Bytes) : Bytes :=
  let old := BitVec.ofNat 64 (le b (8 * k) 8)
  b.take (8 * k) ++ toLe 8 (merge a.width old v).toNat ++ b.drop (8 * k + 8)

/-- A write to the buffer, ignored while BUSY is 1 (R348). -/
def State.writeMbBuf (s : State) (a : Tgt) (w : Who) (k : Nat) (v : Word) : State :=
  s.updDict fun d => d.updBox w fun m => if m.busy then m else { m with buffer := patch a k v m.buffer }

/-- A write of MB_XFER: TOTAL is its bits 31:0 (R350). -/
def State.writeMbXfer (s : State) (a : Tgt) (w : Who) (v : Word) : State :=
  if a.hasLow then s.updDict fun d => d.updBox w fun m => { m with total := bits v.toNat 31 0 } else s

/-! ## What a write does -/

/-- A write of SNAP_CTL: PERIOD, then REQ (R462). (DEDUCED, log entry 23.) -/
def State.writeSnapCtl (s : State) (v : Word) : State :=
  let s := s.updCnt fun c => { c with period := bits v.toNat 23 8 }
  if bit v.toNat 0 then s.requestSnap else s

/-- A write of RING_INVAL (R174, R175). -/
def State.writeInval (s : State) (n : Fin 128) (v : Word) : State :=
  let i := bits v.toNat 35 32
  match s.sqOf n i with
  | some g => if bit v.toNat 36 then s.release n i g else s.hold n i g (v.setWidth 32)
  | none => s

/-- A register that takes only whole, 64-bit writes (R174, R290, R347). -/
def Reg.whole : Reg → Bool
  | .mbReq _ | .inval _ | .dfStart _ | .dfData _ | .dfLast _ | .dfExpect _ _ => true
  | _ => false

/-- An admitted write to a register; to one that is only read it does nothing (DESIGN CHOICE, log entry 18). -/
def State.writeReg (s : State) (a : Tgt) (r : Reg) (v : Word) : State :=
  let low (f : State → State) : State := if a.hasLow then f s else s
  if r.whole ∧ a.width ≠ .full then s.portError else match r with
  | .mbReq w => s.throughBox w (·.writeMbReq w v)
  | .mbXfer w => s.throughBox w (·.writeMbXfer a w v)
  | .mbBuf w k => s.throughBox w (·.writeMbBuf a w k v)
  | .snapCtl => low (·.writeSnapCtl v)
  | .tableFence => if bit v.toNat 0 then low State.tableFence else s
  | .faultClear => low (·.faultClear v)
  | .rtAddr e => s.writeRtAddr a e v
  | .rtAttr e => s.writeRtAttr a e v
  | .rtLabel e => s.updRt fun t =>
    { t with entries := t.entries.set e { t.entries[e] with label := merge a.width t.entries[e].label v } }
  | .instErr n => if bit v.toNat 9 then low (·.clearErr n) else s
  | .inval n => s.writeInval n v
  | .fence n => if bit v.toNat 1 then low (·.switchBank n) else if bit v.toNat 0 then low (·.drain n) else s
  | .head n j => match s.cqOf n j.val with
    | some q => low (·.writeHead n q (v.setWidth 32))
    | none => s
  | .arm n j => match s.cqOf n j.val with
    | some q => if bit v.toNat 0 then low fun s => (s.updCq q fun c => { c with armed := true }).fire q else s
    | none => s
  | .dfCtx n => low (·.updDf n fun d => d.writeCtx v.toNat)
  | .dfStart n => s.writeDfStart n v
  | .dfData n => s.writeDfData n v
  | .dfLast n => s.writeDfLast n v
  | .dfExpect n w => s.writeDfExpect n w v
  | .ident | .mbRsp _ | .faultSummary | .tamperStatus | .poolA | .poolB | .poolShort | .rtRes | .instId _ | .instStatus _
  | .invalStatus _ | .mirror _ _ | .dfResult _ _ | .window _ _ => s

/-- Registers whose writes are answered in this start-up state: all once step 6 of R435 is reached; in ROM mode IDENT, FAULT_CLEAR
and the manager mailbox (R4, R433, R460, R492). (DEDUCED, log entry 18.) -/
def State.servedNow (s : State) (r : Reg) : Bool :=
  s.pwr.boot == .ready || (s.pwr.boot == .romMode && (r == .ident || r == .faultClear || r.box == some .mgr))

/-- A write of v to the register is one that ends COAST (R468): all but IDENT, the region table, the request of a snapshot and a write
that meets an error response; MB_REQ, which may refuse any write, looks for itself. (DEDUCED, log entry 28.) -/
def State.endsCoast (s : State) (a : Tgt) (r : Reg) (v : Word) : Bool :=
  match r with
  | .mbXfer w | .mbBuf w _ => s.boxClean w
  | .ident | .rtAddr _ | .rtAttr _ | .rtLabel _ | .rtRes | .mbReq _ => false
  | .snapCtl => !(a.hasLow && bit v.toNat 0)
  | r => !r.whole || a.width == .full

/-! ## What a read returns -/

/-- Fields placed side by side: each value at its lowest bit. -/
def fields (l : List (Nat × Nat)) : Word := BitVec.ofNat 64 ((l.map fun p => p.2 * 2 ^ p.1).sum)

/-- The longest run of slots in no instance's range (R128). -/
def State.slotRun (s : State) : Nat :=
  let taken := (allInst.filter fun n => (s.inst n).held).map fun n => ((s.inst n).live.slotBase, (s.inst n).live.slotQuota)
  let next (b : Nat) : Nat := ((taken.filter fun p => decide (b ≤ p.1) && p.2 != 0).map (·.1)).foldl min 8192
  let starts := 0 :: taken.map fun p => p.1 + p.2
  (starts.map fun b => if taken.any (fun p => decide (p.1 ≤ b) && decide (b < p.1 + p.2)) then 0 else next b - b).foldl max 0

/-- Slots in no instance's range. -/
def State.freeSlots (s : State) : Nat :=
  8192 - ((allInst.filter fun n => (s.inst n).held).map fun n => (s.inst n).live.slotQuota).sum

/-- POOL_FREE_A and POOL_FREE_B (R128). -/
def State.poolFreeA (s : State) : Word :=
  fields [(0, s.freeCredits none), (16, s.freeSlots), (32, (allSq.filter fun g => (s.sq g).owner.isNone).length),
    (48, (allCq.filter fun q => (s.cq q).owner.isNone).length)]
def State.poolFreeB (s : State) : Word :=
  fields [(0, (allInst.filter fun n => n.val != 0 && (s.inst n).state == .free).length), (16, s.slotRun),
    (32, s.freeEdge none), (44, s.freeTc none 0), (48, s.freeTc none 1), (52, s.freeTc none 2), (56, s.freeTc none 3)]

/-- INST_STATUS (R138). -/
def State.instStatus (s : State) (n : Fin 128) : Word :=
  let i := s.inst n
  fields [(0, i.state.code), (3, flag i.quiesced), (4, flag i.logEnable), (5, flag i.logOverflow),
    (6, flag ((s.cqsOf n).any fun q => (s.cq q).stalled)), (7, flag (i.drawn != i.credits)), (16, i.outstanding),
    (32, i.credits)]

/-- INST_ERR (R139). -/
def Inst.errWord (i : Inst) : Word := fields [(0, i.errCode), (8, flag i.errMore), (12, i.errPage)]

/-- RING_INVAL_STATUS (R176). -/
def State.invalStatus (s : State) (n : Fin 128) : Word :=
  let i := s.inst n
  fields [(0, i.invalAt.toNat), (32, i.invalSq),
    (36, flag ((s.sqOf n i.invalSq).any fun g => (s.sq g).hold.isSome)), (37, flag i.invalDone)]

/-- The SQ mirror (R168). -/
def Sq.mirror (q : Sq) : Word :=
  fields [(0, q.consumed.toNat), (32, q.state.code), (35, flag q.hold.isSome)]

/-- The CQ head register (R181). -/
def Cq.headWord (c : Cq) : Word :=
  fields [(0, c.head.toNat), (32, c.overflow.length), (39, flag c.stalled), (40, flag c.headErr)]

/-- DF_CTX (R291). -/
def Df.ctxWord (d : Df) : Word :=
  fields [(0, d.alg), (8, flag d.compare), (16, d.outLen), (24, d.state.code), (32, if d.state = .failed then d.err else 0),
    (40, d.free)]

/-- MB_RSP and MB_XFER (R349, R350). -/
def Mailbox.rspWord (m : Mailbox) : Word :=
  fields [(0, flag m.busy), (1, flag m.done), (2, flag m.more), (16, m.status), (32, m.rlen)]
def Mailbox.xferWord (m : Mailbox) : Word := fields [(0, m.total), (32, m.doneBytes)]

/-- A doubleword of the instance counter window (R391). -/
def State.windowWord (s : State) (n : Fin 128) (k : Nat) : Word :=
  if k = 255 then BitVec.ofNat 64 s.cnt.seq
  else if k < 10 then BitVec.ofNat 64 (s.counter (0x2080 + n.val) (k + 1))
  else 0#64

/-- The value of a register; one that is only written reads zero. (DESIGN CHOICE, log entry 20.) -/
def State.regValue (s : State) (r : Reg) : Word :=
  match r with
  | .ident => BitVec.ofNat 64 identValue
  | .mbRsp w => ((s.dict.box w).map Mailbox.rspWord).getD 0#64
  | .mbXfer w => ((s.dict.box w).map Mailbox.xferWord).getD 0#64
  | .mbBuf w k => ((s.dict.box w).map fun m => BitVec.ofNat 64 (le m.buffer (8 * k) 8)).getD 0#64
  | .snapCtl => fields [(1, flag (s.cnt.busy || s.cnt.pending)), (2, flag s.cnt.bank), (8, s.cnt.period), (32, s.cnt.seq % 2 ^ 32)]
  | .tableFence => fields [(1, flag s.rt.fence.isSome)]
  | .faultSummary => s.faultSummary
  | .tamperStatus => s.tamperStatus
  | .poolA => s.poolFreeA
  | .poolB => s.poolFreeB
  | .poolShort => BitVec.ofNat 64 s.units.short
  | .rtAddr e => s.rt.entries[e].addr
  | .rtAttr e => s.rt.entries[e].attr
  | .rtLabel e => s.rt.entries[e].label
  | .instId n => fields [(0, n.val), (16, (s.inst n).hand)]
  | .instStatus n => s.instStatus n
  | .instErr n => (s.inst n).errWord
  | .invalStatus n => s.invalStatus n
  | .fence n => fields [(2, flag (s.inst n).fence.isSome), (3, flag (s.inst n).logBank)]
  | .mirror n i => ((s.sqOf n i.val).map fun g => (s.sq g).mirror).getD 0#64
  | .head n j => ((s.cqOf n j.val).map fun q => (s.cq q).headWord).getD 0#64
  | .arm n j => ((s.cqOf n j.val).map fun q => fields [(1, flag (s.cq q).armed), (2, flag ((s.cq q).counted != 0))]).getD 0#64
  | .dfCtx n => (s.inst n).df.ctxWord
  | .dfResult n w => (s.inst n).df.result[w]
  | .window n k => s.windowWord n k
  | .mbReq _ | .faultClear | .rtRes | .inval _ | .dfStart _ | .dfData _ | .dfLast _ | .dfExpect _ _ => 0#64

/-- Registers that read before step 6 of R435 and with both tandems failed (R492, R26), and those of ROM mode (R433). (DESIGN CHOICE, log entry 20.) -/
def State.regReadable (s : State) (r : Reg) : Bool :=
  r == .ident || r == .faultSummary || r == .tamperStatus || s.servedNow r

/-- The value of the register at an offset, where a read of it is admitted and served: none for an error response (R60, R61, R492). (DESIGN CHOICE, log entry 20.) -/
def State.readRegister (s : State) (a : Tgt) (addr : Nat) : Option Word :=
  if s.portTakes a && fits a addr then
    match regAt (addr / 8 * 8) with
    | some r => if s.regReadable r && (r == .ident || admitted a r.page) then some (s.regValue r) else none
    | none => none
  else none

/-! ## REGISTER_WRITE -/

/-- A write at an offset of the window (R60, R61). A write to IDENT has no effect and is no error wherever the port answers (R4). -/
def State.writeWindow (s : State) (a : Tgt) (addr : Nat) (v : Word) : State :=
  if s.portTakes a && fits a addr then
    match regAt (addr / 8 * 8) with
    | some .ident => s.answeredAt
    | some r => s.access a r.page (s.servedNow r) (s.endsCoast a r v) fun s => s.writeReg a r v
    | none => (s.count 0x201E 1).portRefuse a
  else s.portTurned

/-- A read at an offset of the window: its value on the bytes accessed, or an error response, which is counted as a refusal where the
register is another instance's, or the manager's, or nothing is mapped there (R60, R61). (DESIGN CHOICE, log entry 20.) -/
def State.readWindow (s : State) (a : Tgt) (addr : Nat) : State :=
  if s.portTakes a && fits a addr then
    match s.readRegister a addr, regAt (addr / 8 * 8) with
    | some v, some r =>
      let f (s : State) : State := s.portData (merge a.width 0#64 v)
      match r.box with
      | some w => (s.count 0x201E 1).throughBox w f
      | none => f (s.count 0x201E 1)
    | none, some r => if admitted a r.page then (s.count 0x201E 1).portError else (s.count 0x201E 1).portRefuse a
    | _, none => (s.count 0x201E 1).portRefuse a
  else s.portTurned

/-- REGISTER_WRITE: an access of the window, which TGT_WR makes a write or a read. (DESIGN CHOICE, log entry 20.) -/
def execRegisterWrite (a : Tgt) (addr : Nat) (v : Word) (wr : Bool) (s : State) : Host.Outcome State Fault Refusal :=
  .next (if wr then s.writeWindow a addr v else s.readWindow a addr)

end Sys2Proof.Machine
end

