-- ==== Sys2Proof/Machine/Wake.lean ====
section
/-! DEFINITION. Wake frames and the sentry's back-off (R72, R73, R470, R474 to R477). -/

namespace Sys2Proof.Machine

/-- The sentry serves the wake port (R47, R73, R470): in FREEWHEEL, from step 1 of its preparation, and in die reset. -/
def State.sentryServes (s : State) : Bool := s.pwr.state == .freewheel || s.pwr.prep.isSome || s.pwr.dieReset

/-- Key number and freshness value of a frame (R474). -/
def wakeKeySel (b : Bytes) : Fin 4 := Fin.ofNat 4 (byteAt b 1)
def wakeFv (b : Bytes) : Nat := ofBe (slice b 2 8)

/-- Checks 1 to 4 of R475. -/
def State.wakeOk (s : State) (b : Bytes) : Bool :=
  let n := b.length
  decide (18 ≤ n ∧ n ≤ 64) && byteAt b 0 == 1 && decide (byteAt b 1 < 4) && s.cfg.wakeEnable
    && match s.vault.sentry[wakeKeySel b] with
      | some k => (cmac (k.key.take 16) (b.take (n - 8))).take 8 == b.drop (n - 8) && decide (s.vault.counter s.cfg.wakeCounter < wakeFv b)
      | none => false

/-- Back-off allows a frame to be verified whose first WK_REQ came at `at_`: 4 s after the last verification (R477). -/
def Sentry.verifies (x : Sentry) (at_ : Nat) : Bool :=
  x.backoff.isNone || match x.lastVerify with
    | some t => decide (t + 4 * 10 ^ 9 ≤ at_)
    | none => true

/-- An invalid frame; outside back-off it counts toward the next one. (DESIGN CHOICE, log entry 3; DEDUCED, log entry 28.) -/
def State.badFrame (s : State) : State :=
  s.updSentry fun x =>
    { x with invalid := x.invalid + 1
             badTimes := if x.backoff.isSome then x.badTimes
                         else (x.badTimes.filter fun t => s.now ≤ t + 60 * 10 ^ 9) ++ [s.now] }

/-- A valid frame: the vault counter first, then the request for RUN (R475), at once in FREEWHEEL, after step 7 in a
preparation (R470), after release in die reset (R73). -/
def State.goodFrame (s : State) (fv : Nat) : State :=
  let s := (s.setCounter s.cfg.wakeCounter fv).updSentry fun x => { x with valid := x.valid + 1, backoff := none }
  if s.pwr.state = .freewheel then s.updPins fun p => { p with pmStateReq := 0b10#2 }
  else s.updPwr fun p => { p with prep := p.prep.map fun q => { q with wake := true }, wakeInReset := p.wakeInReset || p.dieReset }

/-- The sentry judges a frame that began at `at_`. (DEDUCED, log entry 28.) -/
def State.judge (s : State) (b : Bytes) (at_ : Nat) : State :=
  if s.sentry.verifies at_ then
    let s := s.updSentry fun x => { x with lastVerify := some s.now }
    if s.wakeOk b then s.goodFrame (wakeFv b) else s.badFrame
  else s.badFrame

/-- A whole frame has come: in RUN and COAST it is discarded and counted (R73); one of 65 bytes or more is invalid everywhere (R72); one
with a poisoned word in the crossing FIFO is discarded, and does not count (R447). (DEDUCED, log entry 21.) -/
def State.frameEnds (s : State) : State :=
  let b := s.sentry.rx
  let at_ := s.sentry.rxAt.getD s.now
  let w := (s.updSentry fun x => { x with rx := [], rxLast := false, rxAt := none }).fifoWord 352
  if w.1 then w.2
  else
    let s := w.2
    let s := if s.sentryServes then s else s.count 0x2018 1
    if 65 ≤ b.length then (s.count 0x2018 2).badFrame else if s.sentryServes then s.judge b at_ else s

/-- Bytes come over the handshake of R72; `held`: WK_REQ is still high for the last of them, so WK_ACK is. A frame is whole once the
handshake of its last byte is over. (DEDUCED, log entry 28.) -/
def State.wakeFrame (s : State) (b : Bytes) (last held : Bool) : State :=
  if s.pwr.state = .off then s
  else
    let s := if s.sentry.rxLast && !b.isEmpty then s.frameEnds else s
    let s := s.updSentry fun x => { x with rx := x.rx ++ b, rxLast := x.rxLast || (last && !b.isEmpty), rxAt := if b.isEmpty then x.rxAt else x.rxAt.or (some s.now) }
    let s := s.updPins fun p => { p with wkAck := held && (p.wkAck || !b.isEmpty) }
    if s.sentry.rxLast && !s.pins.wkAck then s.frameEnds else s

def execWakeFrame (bytes : Bytes) (last held : Bool) (s : State) : Host.Outcome State Fault Refusal := .next (s.wakeFrame bytes last held)

/-- 16 invalid frames have fallen within 60 s. -/
def Sentry.backoffDue (x : Sentry) : Bool :=
  x.backoff.isNone && x.badTimes.any fun t => 16 ≤ (x.badTimes.filter fun u => t ≤ u && u ≤ t + 60 * 10 ^ 9).length

/-- Back-off for BACKOFF_TIME seconds (R477). -/
def State.backOff (s : State) : State :=
  (s.updSentry fun x =>
    { x with backoffs := x.backoffs + 1, backoff := some (s.now + s.cfg.backoffTime * 10 ^ 9), badTimes := [] }).logRun 0x0050 []

def execWakeBackoff (s : State) : Host.Outcome State Fault Refusal := .next (if s.sentry.backoffDue then s.backOff else s)

/-- BACKOFF_END: BACKOFF_TIME is over. -/
def execBackoffEnd (s : State) : Host.Outcome State Fault Refusal := .next (s.updSentry fun x => { x with backoff := none })

end Sys2Proof.Machine
end

