-- ==== Sys2Proof/Machine/Dispatch.lean ====
section
/-! DEFINITION. The effect of each command on everything but the queue: one arm per row of spec/opcode_table.json. -/

namespace Sys2Proof.Machine

def exec (i : Instr) (s : State) : Host.Outcome State Fault Refusal :=
  match i with
  | .dieRstNAssert => Sys2Proof.Machine.execDieRstNAssert s
  | .dieRstNRelease b => Sys2Proof.Machine.execDieRstNRelease b s
  | .firmwareResident sectionsOk => Sys2Proof.Machine.execFirmwareResident sectionsOk s
  | .aonPorNRelease => Sys2Proof.Machine.execAonPorNRelease s
  | .clockSclkAbsent => Sys2Proof.Machine.execClockSclkAbsent s
  | .powerLoss => Sys2Proof.Machine.execPowerLoss s
  | .vddAonLost => Sys2Proof.Machine.execVddAonLost s
  | .vbatLoss => Sys2Proof.Machine.execVbatLoss s
  | .scanModeRise => Sys2Proof.Machine.execScanModeRise s
  | .pmDownReq => Sys2Proof.Machine.execPmDownReq s
  | .pmDownReqFall reached s0 => Sys2Proof.Machine.execPmDownReqFall reached s0 s
  | .freewheelAfter => Sys2Proof.Machine.execFreewheelAfter s
  | .freewheelJobLimit => Sys2Proof.Machine.execFreewheelJobLimit s
  | .freewheelEntry => Sys2Proof.Machine.execFreewheelEntry s
  | .coastEntry => Sys2Proof.Machine.execCoastEntry s
  | .coastExit => Sys2Proof.Machine.execCoastExit s
  | .tbCycle => Sys2Proof.Machine.execTbCycle s
  | .timeLost valid tbTime => Sys2Proof.Machine.execTimeLost valid tbTime s
  | .windowPoll w => Sys2Proof.Machine.execWindowPoll w s
  | .tamper idx stays => Sys2Proof.Machine.execTamper idx stays s
  | .alarmInput idx stays => Sys2Proof.Machine.execAlarmInput idx stays s
  | .sensor k stays => Sys2Proof.Machine.execSensor k stays s
  | .shuffle flips cells => Sys2Proof.Machine.execShuffle flips cells s
  | .tmpClear w mask => Sys2Proof.Machine.execTmpClear w mask s
  | .faultClear a v => Sys2Proof.Machine.execFaultClear a v s
  | .sensClr a v => Sys2Proof.Machine.execSensClr a v s
  | .wakeFrame bytes last held => Sys2Proof.Machine.execWakeFrame bytes last held s
  | .wakeBackoff => Sys2Proof.Machine.execWakeBackoff s
  | .backoffEnd => Sys2Proof.Machine.execBackoffEnd s
  | .instErrClr a n => Sys2Proof.Machine.execInstErrClr a n s
  | .drain a n => Sys2Proof.Machine.execDrain a n s
  | .switch a n => Sys2Proof.Machine.execSwitch a n s
  | .drainComplete n => Sys2Proof.Machine.execDrainComplete n s
  | .ringInvalHold a n sq first => Sys2Proof.Machine.execRingInvalHold a n sq first s
  | .ringInvalRelease a n sq => Sys2Proof.Machine.execRingInvalRelease a n sq s
  | .ringInvalDone n => Sys2Proof.Machine.execRingInvalDone n s
  | .headWrite a n cq v bad => Sys2Proof.Machine.execHeadWrite a n cq v bad s
  | .arm a n cq => Sys2Proof.Machine.execArm a n cq s
  | .dfStart a n v => Sys2Proof.Machine.execDfStart a n v s
  | .dfAbort a n => Sys2Proof.Machine.execDfAbort a n s
  | .dfData a n v => Sys2Proof.Machine.execDfData a n v s
  | .dfLast a n v => Sys2Proof.Machine.execDfLast a n v s
  | .dfExpect a n w v => Sys2Proof.Machine.execDfExpect a n w v s
  | .dfCtxWrite a n v => Sys2Proof.Machine.execDfCtxWrite a n v s
  | .dfDone n e => Sys2Proof.Machine.execDfDone n e s
  | .rtAddrWrite a e v => Sys2Proof.Machine.execRtAddrWrite a e v s
  | .rtAttrWrite a e v => Sys2Proof.Machine.execRtAttrWrite a e v s
  | .tableFence a => Sys2Proof.Machine.execTableFence a s
  | .tableFenceComplete => Sys2Proof.Machine.execTableFenceComplete s
  | .snapshotRequest a => Sys2Proof.Machine.execSnapshotRequest a s
  | .snapshotPeriod => Sys2Proof.Machine.execSnapshotPeriod s
  | .snapshotDone bad => Sys2Proof.Machine.execSnapshotDone bad s
  | .registerWrite a addr v wr => Sys2Proof.Machine.execRegisterWrite a addr v wr s
  | .read w index sub => Sys2Proof.Machine.execRead w index sub s
  | .write w index sub data => Sys2Proof.Machine.execWrite w index sub data s
  | .segWrite w index sub first last arg data => Sys2Proof.Machine.execSegWrite w index sub first last arg data s
  | .segRead w index sub first arg => Sys2Proof.Machine.execSegRead w index sub first arg s
  | .segAbort w => Sys2Proof.Machine.execSegAbort w s
  | .transferIdle w => Sys2Proof.Machine.execTransferIdle w s
  | .lcRequest w data => Sys2Proof.Machine.execLcRequest w data s
  | .debugEnable w data => Sys2Proof.Machine.execDebugEnable w data s
  | .hostMeasure w data => Sys2Proof.Machine.execHostMeasure w data s
  | .recoveryAttest w data => Sys2Proof.Machine.execRecoveryAttest w data s
  | .rootDelivery w data => Sys2Proof.Machine.execRootDelivery w data s
  | .anchorRestore w data => Sys2Proof.Machine.execAnchorRestore w data s
  | .anchorPkg w data => Sys2Proof.Machine.execAnchorPkg w data s
  | .create w n => Sys2Proof.Machine.execCreate w n s
  | .activate w n => Sys2Proof.Machine.execActivate w n s
  | .quiesce w n => Sys2Proof.Machine.execQuiesce w n s
  | .quiesceComplete n => Sys2Proof.Machine.execQuiesceComplete n s
  | .reset w n => Sys2Proof.Machine.execReset w n s
  | .selfReset w n => Sys2Proof.Machine.execSelfReset w n s
  | .engineStopTimeout n => Sys2Proof.Machine.execEngineStopTimeout n s
  | .resetComplete n => Sys2Proof.Machine.execResetComplete n s
  | .destroy w n => Sys2Proof.Machine.execDestroy w n s
  | .reshare w n => Sys2Proof.Machine.execReshare w n s
  | .pelMove w n data => Sys2Proof.Machine.execPelMove w n data s
  | .sqEnable w g => Sys2Proof.Machine.execSqEnable w g s
  | .sqDisable w g => Sys2Proof.Machine.execSqDisable w g s
  | .shutdownAbandon g => Sys2Proof.Machine.execShutdownAbandon g s
  | .shutdownComplete g => Sys2Proof.Machine.execShutdownComplete g s
  | .cqEnable w q => Sys2Proof.Machine.execCqEnable w q s
  | .cqDisable w q => Sys2Proof.Machine.execCqDisable w q s
  | .edgeLoad w data => Sys2Proof.Machine.execEdgeLoad w data s
  | .edgeFree w data => Sys2Proof.Machine.execEdgeFree w data s
  | .jnlCompact w data => Sys2Proof.Machine.execJnlCompact w data s
  | .updBegin w data => Sys2Proof.Machine.execUpdBegin w data s
  | .updSegment w first last arg data => Sys2Proof.Machine.execUpdSegment w first last arg data s
  | .updAbandon w data => Sys2Proof.Machine.execUpdAbandon w data s
  | .wakeKey w k data => Sys2Proof.Machine.execWakeKey w k data s
  | .faultInject w data => Sys2Proof.Machine.execFaultInject w data s
  | .sessionClose w data => Sys2Proof.Machine.execSessionClose w data s
  | .rtLoad w data => Sys2Proof.Machine.execRtLoad w data s
  | .recAppend w data => Sys2Proof.Machine.execRecAppend w data s
  | .s1Enable w data => Sys2Proof.Machine.execS1Enable w data s
  | .sqPoll g => Sys2Proof.Machine.execSqPoll g s
  | .pollInterval => Sys2Proof.Machine.execPollInterval s
  | .ringReadReturn g beats cache => Sys2Proof.Machine.execRingReadReturn g beats cache s
  | .dispatch tc => Sys2Proof.Machine.execDispatch tc s
  | .chainMemberStart j => Sys2Proof.Machine.execChainMemberStart j s
  | .pad g => Sys2Proof.Machine.execPad g s
  | .nop j => Sys2Proof.Machine.execNop j s
  | .aeadEnc j => Sys2Proof.Machine.execAeadEnc j s
  | .aeadDec j => Sys2Proof.Machine.execAeadDec j s
  | .cipherEnc j => Sys2Proof.Machine.execCipherEnc j s
  | .cipherDec j => Sys2Proof.Machine.execCipherDec j s
  | .macGen j => Sys2Proof.Machine.execMacGen j s
  | .macVerify j => Sys2Proof.Machine.execMacVerify j s
  | .hash j => Sys2Proof.Machine.execHash j s
  | .hmacGen j => Sys2Proof.Machine.execHmacGen j s
  | .hashCompare j => Sys2Proof.Machine.execHashCompare j s
  | .hmacVerify j => Sys2Proof.Machine.execHmacVerify j s
  | .keyDerive j => Sys2Proof.Machine.execKeyDerive j s
  | .keyUnwrap j => Sys2Proof.Machine.execKeyUnwrap j s
  | .keyWrap j => Sys2Proof.Machine.execKeyWrap j s
  | .keyEvict j => Sys2Proof.Machine.execKeyEvict j s
  | .keyEvictComplete slot => Sys2Proof.Machine.execKeyEvictComplete slot s
  | .keyDeliverSealed j => Sys2Proof.Machine.execKeyDeliverSealed j s
  | .kbAck => Sys2Proof.Machine.execKbAck s
  | .kbNack => Sys2Proof.Machine.execKbNack s
  | .kbAnswerTimeout => Sys2Proof.Machine.execKbAnswerTimeout s
  | .kbZeroiseWaitTimeout j => Sys2Proof.Machine.execKbZeroiseWaitTimeout j s
  | .keyAgree j => Sys2Proof.Machine.execKeyAgree j s
  | .pkSign j => Sys2Proof.Machine.execPkSign j s
  | .pkVerify j => Sys2Proof.Machine.execPkVerify j s
  | .pkKeygen j => Sys2Proof.Machine.execPkKeygen j s
  | .kemEncaps j => Sys2Proof.Machine.execKemEncaps j s
  | .kemDecaps j => Sys2Proof.Machine.execKemDecaps j s
  | .modexp j => Sys2Proof.Machine.execModexp j s
  | .ecPoint j => Sys2Proof.Machine.execEcPoint j s
  | .random j => Sys2Proof.Machine.execRandom j s
  | .tls13Open j => Sys2Proof.Machine.execTls13Open j s
  | .tls13Seal j => Sys2Proof.Machine.execTls13Seal j s
  | .espIn j => Sys2Proof.Machine.execEspIn j s
  | .espOut j => Sys2Proof.Machine.execEspOut j s
  | .keyResolve j bad => Sys2Proof.Machine.execKeyResolve j bad s
  | .chunkComplete j c => Sys2Proof.Machine.execChunkComplete j c s
  | .quantumBoundary k e c => Sys2Proof.Machine.execQuantumBoundary k e c s
  | .pkJobEnd j c => Sys2Proof.Machine.execPkJobEnd j c s
  | .completionInterrupt q => Sys2Proof.Machine.execCompletionInterrupt q s
  | .irqDelay q => Sys2Proof.Machine.execIrqDelay q s
  | .irqAccept => Sys2Proof.Machine.execIrqAccept s
  | .fabricReadResponse id beats => Sys2Proof.Machine.execFabricReadResponse id beats s
  | .fabricWriteResponse id r => Sys2Proof.Machine.execFabricWriteResponse id r s
  | .engineQuarantined k e => Sys2Proof.Machine.execEngineQuarantined k e s
  | .clusterFenced c cause => Sys2Proof.Machine.execClusterFenced c cause s
  | .tcRebuild => Sys2Proof.Machine.execTcRebuild s
  | .mismatchAlarm => Sys2Proof.Machine.execMismatchAlarm s
  | .reseed => Sys2Proof.Machine.execReseed s
  | .entropySource e => Sys2Proof.Machine.execEntropySource e s
  | .edgeVerify f => Sys2Proof.Machine.execEdgeVerify f s
  | .edgeGenerate f => Sys2Proof.Machine.execEdgeGenerate f s
  | .edgeLaneDone l e => Sys2Proof.Machine.execEdgeLaneDone l e s
  | .hello f => Sys2Proof.Machine.execHello f s
  | .finish f => Sys2Proof.Machine.execFinish f s
  | .request f => Sys2Proof.Machine.execRequest f s
  | .close f => Sys2Proof.Machine.execClose f s
  | .sessionDropLimit k => Sys2Proof.Machine.execSessionDropLimit k s
  | .openingIdle k => Sys2Proof.Machine.execOpeningIdle k s
  | .idleLimit k => Sys2Proof.Machine.execIdleLimit k s
  | .nCrTimeout b sending => Sys2Proof.Machine.execNCrTimeout b sending s
  | .tandemCheckpoint t => Sys2Proof.Machine.execTandemCheckpoint t s
  | .tandemRestart t => Sys2Proof.Machine.execTandemRestart t s
  | .tandemRetired t => Sys2Proof.Machine.execTandemRetired t s
  | .journalCommit durable => Sys2Proof.Machine.execJournalCommit durable s
  | .journalSnapshot => Sys2Proof.Machine.execJournalSnapshot s
  | .budgetWindowEnd => Sys2Proof.Machine.execBudgetWindowEnd s
  | .removal => Sys2Proof.Machine.execRemoval s
  | .powerOffHold cardLow => Sys2Proof.Machine.execPowerOffHold cardLow s
  | .insertion => Sys2Proof.Machine.execInsertion s
  | .debounceEnd c => Sys2Proof.Machine.execDebounceEnd c s
  | .cardOperationDone slot readBack s0 => Sys2Proof.Machine.execCardOperationDone slot readBack s0 s
  | .cardTransferFailure slot counterAdvanced s0 => Sys2Proof.Machine.execCardTransferFailure slot counterAdvanced s0 s
  | .cardTimeout slot ended => Sys2Proof.Machine.execCardTimeout slot ended s
  | .appendGrace => Sys2Proof.Machine.execAppendGrace s
  | .linkTrained east => Sys2Proof.Machine.execLinkTrained east s
  | .cascadeRetransmit east => Sys2Proof.Machine.execCascadeRetransmit east s
  | .linkError east => Sys2Proof.Machine.execLinkError east s
  | .enrolmentStart m => Sys2Proof.Machine.execEnrolmentStart m s
  | .enrol1 h => Sys2Proof.Machine.execEnrol1 h s
  | .enrol2 h e => Sys2Proof.Machine.execEnrol2 h e s
  | .enrol3 h e => Sys2Proof.Machine.execEnrol3 h e s
  | .pairKeys h members keys => Sys2Proof.Machine.execPairKeys h members keys s
  | .heartbeatPeriod => Sys2Proof.Machine.execHeartbeatPeriod s
  | .heartbeat h => Sys2Proof.Machine.execHeartbeat h s
  | .heartbeatAck h => Sys2Proof.Machine.execHeartbeatAck h s
  | .pelLeadLost => Sys2Proof.Machine.execPelLeadLost s
  | .ackLoss m => Sys2Proof.Machine.execAckLoss m s
  | .capacityAdvert => Sys2Proof.Machine.execCapacityAdvert s
  | .capacity h n => Sys2Proof.Machine.execCapacity h n s
  | .fwdJob h job w => Sys2Proof.Machine.execFwdJob h job w s
  | .fwdResult h job r => Sys2Proof.Machine.execFwdResult h job r s
  | .fwdCancel h job => Sys2Proof.Machine.execFwdCancel h job s
  | .fwdTimeout j => Sys2Proof.Machine.execFwdTimeout j s
  | .slotInstall h srcInst dstInst base quota counters slots => Sys2Proof.Machine.execSlotInstall h srcInst dstInst base quota counters slots s
  | .slotCommit h dstInst => Sys2Proof.Machine.execSlotCommit h dstInst s
  | .slotConfirm h srcInst => Sys2Proof.Machine.execSlotConfirm h srcInst s
  | .slotRefuse h srcInst => Sys2Proof.Machine.execSlotRefuse h srcInst s
  | .slotMoveTimeout n => Sys2Proof.Machine.execSlotMoveTimeout n s
  | .confirmTimeout n => Sys2Proof.Machine.execConfirmTimeout n s
  | .sclkInEdges => Sys2Proof.Machine.execSclkInEdges s
  | .kbZeroiseFall => Sys2Proof.Machine.execKbZeroiseFall s
  | .reservedChannelFrame f => Sys2Proof.Machine.execReservedChannelFrame f s
  | .oflTxReady => Sys2Proof.Machine.execOflTxReady s
  | .digestJobEnd j c => Sys2Proof.Machine.execDigestJobEnd j c s
  | .firstFrame f => Sys2Proof.Machine.execFirstFrame f s
  | .consecutiveFrame f => Sys2Proof.Machine.execConsecutiveFrame f s
  | .flowControl f => Sys2Proof.Machine.execFlowControl f s
  | .hopAcknowledgement east => Sys2Proof.Machine.execHopAcknowledgement east s

end Sys2Proof.Machine
end

