-- ==== Sys2Proof/Machine/Tick.lean ====
section
/-! DEFINITION. The passing of one nanosecond (DESIGN CHOICE, log entry 3). -/

namespace Sys2Proof.Machine

/-- Start-up and the initialisation of a card run on by themselves once begun (R398, R405, R435). (DESIGN CHOICE, log entry 3.) -/
def State.goOnStarting (s : State) : State :=
  s.slot0Starts.cardStarts.runStartUp.checkHead.downDue

/-- One nanosecond passes: the model's clock advances, and TB_TIME with it while TB_VALID is high (R77); direct-feed
buffers drain (DEDUCED, log entry 15); what has been started runs to its end; TGT_RSP and TGT_ERR fall (R60), the
spans of R467 and R469 go on or break, and that of R425 grows. (DESIGN CHOICE, log entry 3.) -/
def tick (s : State) : State :=
  let s := s.dfAbsorb.goOnStarting
  { s with
    now := s.now + 1
    pwr := { s.pwr with calmSince := s.calmNext }
    jnl := { s.jnl with winElapsed := s.jnl.winElapsed + if s.jnl.winOpen && s.pwr.state != .off then 1 else 0 }
    pins := { s.pins with tbTime := if s.pins.tbValid then s.pins.tbTime + 1 else s.pins.tbTime, tgtRsp := false, tgtErr := false } }

end Sys2Proof.Machine
end

