-- ==== Sys2Proof/Machine/Outputs.lean ====
section
/-! DEFINITION. Outputs of R46 that follow from the state, where State holds no pin of their own (R47, R62 to R64, R68 to R70).
MGR_IRQ and OFL_AVAIL stand in Flags.lean. (DESIGN CHOICE, log entry 20.) -/

namespace Sys2Proof.Machine

/-- IRQ_VALID, with IRQ_INST and IRQ_VEC where it is high (R62). -/
def State.irqOut (s : State) : Option (Fin 128 × Nat) := s.irq.shown

/-- KB_VALID (R66). -/
def State.kbValid (s : State) : Bool := s.pins.kb.isSome

/-- PM_STATE_REQ; none where it is not driven, VDD_AON being absent (R47, R466). -/
def State.pmStateReqOut (s : State) : Option (BitVec 2) := if s.pwr.state = .off then none else some s.pins.pmStateReq

/-- A beat on OFL_TX: CHAN, SOF, EOF and its bytes, whose count is BYTES (R63). -/
structure OflBeat where
  chan : Nat
  sof  : Bool
  eof  : Bool
  data : Bytes
  deriving DecidableEq, Repr

/-- The beat presented on OFL_TX, none while OFL_TX_VALID is low: of a frame on channel 96, or a verdict, which is one beat (R63, R270). (DESIGN CHOICE, log entry 20.) -/
def State.oflTx (s : State) : Option OflBeat :=
  if s.oflAvail = false then none
  else if s.txFrame then
    s.eoa.out.head?.map fun f => ⟨96, s.eoa.taken == 0, decide (f.length ≤ s.eoa.taken + 32), slice f s.eoa.taken (min 32 (f.length - s.eoa.taken))⟩
  else s.edge.verdicts.head?.map fun v => ⟨v.1, true, true, v.2⟩

/-- The block drives CMD and DAT of slot 0: an operation or its initialisation is under way; otherwise they are high-impedance (R46, R47). (DESIGN CHOICE, log entry 20.) -/
def State.s0Drives (s : State) : Bool := s.jnl.inFlight.isSome || s.jnl.s0Init.isSome

/-- The same of slot 1 (R69). -/
def State.s1Drives (s : State) : Bool := s.card.append.isSome || s.card.init.isSome

/-- The frames that the TX words of a hop carry, each with its CRC-32; none is the idle pattern (R46, R482). (DESIGN CHOICE, log entries 20
and 52.) -/
def State.hopFrames (s : State) (h : Fin 2) : List (Bytes × Nat) :=
  if s.pins.casBypass then [] else s.cas.out[h].map fun f => (f.bytes, crc32 f.bytes)

end Sys2Proof.Machine
end

