-- ==== Sys2Proof/Safety.lean ====
section
/-! DEFINITION. What counts as a safe step, and the terms that claims use. -/

namespace Sys2Proof.Machine

/-- The step from s goes on: it is neither a fault nor a refusal. -/
def Safe (s : State) : Prop := ∃ t, step s = .next t

/-- A write at the target port reaches its register: the port takes it, step 6 of R435 is reached, and R61 admits it. -/
def State.Served (s : State) (a : Tgt) (page : Option (Fin 128)) : Prop :=
  s.portTakes a = true ∧ s.pwr.boot = .ready ∧ admitted a page = true

/-- The dictionary service is free to take the next request of w: the block runs, w's mailbox is not BUSY or its session
is open, nothing waits or is in process, and no FREEWHEEL preparation is under way. -/
def State.Idle (s : State) (w : Who) : Prop :=
  s.alive = true ∧ (match w with
    | .session k => (s.eoa.sessions[k]).any (·.opened)
    | _ => s.boxClean w && (s.dict.box w).any (fun m => !m.busy)) = true
    ∧ s.dictBusy = false ∧ s.dict.batch = none ∧ s.dict.waiting = [] ∧ s.pwr.prep = none

/-- The request of w has been answered with this status: the service says so, and a mailbox is DONE with it. -/
def State.Told (t : State) (w : Who) (st : EStatus) : Prop :=
  t.dict.last = st ∧ ∀ m, t.dict.box w = some m → m.busy = false ∧ m.done = true ∧ m.status = st.code

/-- What any request may change apart from its object: of the pins the answer of the target port, of the power state the cause that ends
COAST. -/
def State.Asked (s t : State) : Prop :=
  t.pins = { s.pins with tgtRsp := t.pins.tgtRsp, tgtErr := t.pins.tgtErr, tgtRdata := t.pins.tgtRdata } ∧ t.pwr = { s.pwr with coastCause := t.pwr.coastCause }

/-- The same where the request starts an operation of a card slot: its clock may run, too (R410). -/
def State.AskedCards (s t : State) : Prop :=
  t.pins = { s.pins with tgtRsp := t.pins.tgtRsp, tgtErr := t.pins.tgtErr, tgtRdata := t.pins.tgtRdata, s0Clk := t.pins.s0Clk, s1Clk := t.pins.s1Clk }
    ∧ t.pwr = { s.pwr with coastCause := t.pwr.coastCause }

/-- The input logs of g in place of those of f: what an exchanged input changes (R451). -/
def Flt.withLogs (f g : Flt) : Flt := { f with tandems := .ofFn fun k => { f.tandems[k] with log := g.tandems[k].log } }

/-- Outcome o answers the request that w made in s with status st, in a state of which f holds. -/
def State.Answers (s : State) (w : Who) (o : Host.Outcome State Fault Refusal) (st : EStatus) (f : State → Prop) : Prop :=
  ∃ t, o = .next t ∧ t.Told w st ∧ s.Asked t ∧ f t

/-- A commit of these values of w, or of an update segment, is taken up in t: its records are in the group in flight, or it waits for a group
that was in flight in s, or for slot 0 (R82). -/
def State.Committing (s t : State) (w : Who) (l : List (Obj × Bytes)) (segment : Option Nat) : Prop :=
  ∃ c, t.dict.commit = some c ∧ c.who = some w ∧ c.writes = l ∧ c.segment = segment
    ∧ (s.jnl.inFlight = none → s.jnl.s0Waits = false → c.started = true)
    ∧ (c.started = true → ∃ g, t.jnl.inFlight = some g ∧ g.recs = commitRecs l segment)

/-- What an access that is admitted changes apart from its effect: the counters, TGT_ERR and the cause that ends COAST. -/
def State.Answered (s t : State) : Prop :=
  t.pins = { s.pins with tgtRsp := true, tgtErr := false } ∧ t.pwr = { s.pwr with coastCause := s.pwr.coastCause || s.pwr.state == .coast }

/-- The same where the access leaves COAST as it is: IDENT and the region table (R468). -/
def State.AnsweredOnly (s t : State) : Prop := t.pins = { s.pins with tgtRsp := true, tgtErr := false } ∧ t.pwr = s.pwr

/-- An access that has an error response changes nothing but the counters. -/
def State.Turned (s t : State) : Prop :=
  t = { s with pins := { s.pins with tgtRsp := true, tgtErr := true, tgtRdata := 0#64 }, cnt := t.cnt }

/-- Every instance but n is as before. -/
def State.OtherInsts (s t : State) (n : Fin 128) : Prop := ∀ m, m ≠ n → t.inst m = s.inst m

/-- t keeps of s what neither the end of a job nor the erasure of keys reaches: of an SQ all but which completion of its
shutdown came last (R184). -/
structure State.Kept (s t : State) : Prop where
  pending : t.pending = s.pending
  now : t.now = s.now
  free : t.free = s.free
  tamper : t.tamper = s.tamper
  vault : t.vault = s.vault
  life : t.life = s.life
  sqs : ∀ g, t.sq g = { s.sq g with shutLast := (t.sq g).shutLast }
  rt : t.rt = s.rt
  cfg : t.cfg = s.cfg
  card : t.card = s.card
  rng : t.rng = s.rng
  pwr : t.pwr = s.pwr
  sentry : t.sentry = s.sentry
  disp : t.disp = s.disp
  pins : t.pins = { s.pins with kb := t.pins.kb, kbZeroise := t.pins.kbZeroise }
  zero : s.pins.kbZeroise = true → t.pins.kbZeroise = true

/-- t keeps also what the end of a job does not reach. -/
structure State.KeptAll (s t : State) : Prop extends State.Kept s t where
  dict : t.dict = s.dict
  edge : t.edge = s.edge
  eoa : t.eoa = s.eoa

/-- Nothing waits for an engine's context or for a sequencer. -/
def State.NoneWait (s : State) : Prop := (∀ j ∈ s.jobs, j.phase ≠ .context ∧ j.unplaced = false) ∧ s.cas.fwdIn = []

/-- Job j stands dispatched, has started, passes steps 1 to 4 of R194, is not superseded, and no rebuild holds it up. -/
def State.Takes (s : State) (j : Job) (op : Nat) : Prop :=
  s.job j.id = some j ∧ j.opcode = op ∧ j.phase = .assigned ∧ j.waiting = false ∧ s.superseded j = false
    ∧ s.checkEntry j = none ∧ s.unseated j = false ∧ j.key = none ∧ j.goneKey = none ∧ j.pend = none ∧ j.pieces = []
    ∧ j.engine = none

/-- Job j, on its way in s, completes in t with this status and RESULT: its completion is written to its CQ or stands in
the overflow area (R178, R182), or the region table refused it, with a notice (R334). -/
def State.Completed (s t : State) (j : Job) (st : Status) (r : Nat) : Prop :=
  let b := cqBody st j.tag (s.localSq j.inst j.sq) (s.inst j.inst).hand r
  (∀ k ∈ t.jobs, k.id ≠ j.id) ∧
    ((∃ w ∈ t.fab.writes, w.what = .completion j.cq ∧ w.inst = j.inst ∧ w.data.drop 1 = b.drop 1)
      ∨ (∃ h ∈ (t.cq j.cq).overflow, h.bytes = b ∧ h.counted = j.irq)
      ∨ (t.inst j.inst).errCode ≠ 0)

/-- Job j ends: it completes, or waits for the responses of its writes, to complete so (R235). -/
def State.Ended (s t : State) (j : Job) (st : Status) (r : Nat) : Prop :=
  s.Completed t j st r ∨ ∃ k ∈ t.jobs, k.id = j.id ∧ k.phase = .draining ∧ k.ending = some (st, r)

/-- Every one of these writes of job j is on its way, but that an instance which FAILED since issues no more (R145). -/
def State.Stored (t : State) (j : Job) (l : List Out) : Prop :=
  ∀ o ∈ l, (∃ w ∈ t.fab.writes, w.inst = j.inst ∧ w.addr = o.2.2.1 ∧ w.data = o.2.2.2 ∧ w.what = .data j.id j.sq)
    ∨ ((t.inst j.inst).state = .failed ∧ (t.inst j.inst).errCode ≠ 0)

/-- No write of data is on its way in t that was not in s. -/
def State.NothingStored (s t : State) : Prop :=
  ∀ w ∈ t.fab.writes, w ∈ s.fab.writes ∨ (∃ q, w.what = .completion q)

/-- The region table as R327 to R330 keep it: no entry shows a reserved bit, and every enabled entry covers a region of
4 KiB to 1 TiB that ends at or below 2^52. -/
def RtEntry.Good (e : RtEntry) : Prop :=
  e.addr &&& ~~~rtAddrMask = 0#64 ∧ e.attr &&& ~~~(rtAttrMask ||| 8#64) = 0#64
    ∧ (e.en = true → goodGeometry e.addr e.attr = true)

def State.TableGood (s : State) : Prop := ∀ e : Fin 1024, s.rt.entries[e].Good

end Sys2Proof.Machine
end

