-- ==== Sys2Proof/Certificates/Slice0/Obligations.lean ====
section
/-! DEFINITION. What is claimed of the block, for the provers: one `Prop` each. A frame is written as
`t = { s with … }`: t is s but for the named fields, each given or left as what t holds there. -/

open Sys2Proof Sys2Proof.Machine

/-! ## The machine -/

/-- R60 and the block's queue: a step with command c in front is exec of c on the state with the queue's rest. -/
def Obligations.StepRunsFront : Prop :=
  ∀ (s : State) (c : Instr) (rest : List Instr), s.pending = c :: rest → step s = exec c { s with pending := rest }

/-- With nothing waiting, one nanosecond passes (log entry 3, the model's choice): the clock and, while TB_VALID is high,
TB_TIME advance (R77), the target port's answer ends, direct-feed input buffers drain (log entry 15), the spans that R467, R469
(log entry 28) and R425 (log entry 29) measure grow or break, and with no start-up and no card initialisation begun, no session waiting
for an engine and no PM_DOWN_REQ to take up, nothing else changes. A start-up that has begun goes on (R435), each of its phases in one
step (log entries 3 and 32): none is begun after the last one, and its first is over after one step. -/
def Obligations.IdleStep : Prop :=
  ∀ s : State, s.pending = [] →
    (s.pwr.starting = none → s.jnl.s0Init = none → s.jnl.headDue = none → s.card.init = none → (∀ n, (s.inst n).df.waits = false) →
      (s.pins.pmDownReq = true → s.pwr.prep ≠ none) → ∃ t, step s = .next t ∧ t.now = s.now + 1
      ∧ t.pins = { s.pins with tbTime := if s.pins.tbValid then s.pins.tbTime + 1 else s.pins.tbTime, tgtRsp := false
                               tgtErr := false }
      ∧ (∀ n, t.inst n = { s.inst n with df := { (s.inst n).df with buffered := 0, failedOn := [] } })
      ∧ t.pwr = { s.pwr with calmSince := s.calmNext }
      ∧ t.jnl = { s.jnl with winElapsed := if s.jnl.winOpen = true ∧ s.pwr.state ≠ .off then s.jnl.winElapsed + 1 else s.jnl.winElapsed }
      ∧ t = { s with now := t.now, pins := t.pins, insts := t.insts, pwr := t.pwr, jnl := t.jnl })
    ∧ (∀ b kept, s.pwr.starting = some (b, kept) → ∃ t, step s = .next t ∧ t.now = s.now + 1
      ∧ (s.pwr.bootStep = .accept → s.jnl.headDue = none → t.pwr.starting = none ∧ t.pwr.boot = .ready)
      ∧ (s.pwr.bootStep = .first → t.pwr.starting ≠ none → t.pwr.bootStep ≠ .first)
      ∧ (s.pwr.bootStep = .load → s.jnl.s0Init = none → t.pwr.starting ≠ none → t.pwr.bootStep = .accept))

/-- Every command has a next state, but for a fabric response to an access that was never issued, or is not on its way yet
(log entry 5, the model's choice): that one is the only stop, and it is the fault neverIssued. -/
def Obligations.EveryCommandGoesOn : Prop :=
  ∀ (c : Instr) (s : State), (∃ t, exec c s = .next t) ∨
    (exec c s = .fault .neverIssued ∧
      ((∃ id beats, c = .fabricReadResponse id beats ∧ (∀ r, s.fab.reads.find? (·.id == id) = some r → r.out = false)
          ∧ (s.fab.reads.find? (·.id == id) = none → s.fab.nextId ≤ id)) ∨
       (∃ id r, c = .fabricWriteResponse id r ∧ (∀ w, s.fab.writes.find? (·.id == id) = some w → w.out = false)
          ∧ (s.fab.writes.find? (·.id == id) = none → s.fab.nextId ≤ id))))

/-- R46: the outputs at reset that the table gives: KB_ZEROISE and CAS_BYPASS high, PM_STATE_REQ RUN, the cascade's TX words
idle, CMD and DAT of both card slots high-impedance, the others low. -/
def Obligations.ResetOutputs : Prop :=
  let p := State.reset.pins
  p.kbZeroise = true ∧ p.casBypass = true ∧ State.reset.pmStateReqOut = some 0b10#2 ∧ p.pmDownAck = false ∧ p.wkAck = false ∧ p.dbgPermit = false
    ∧ p.tgtRsp = false ∧ p.tgtErr = false ∧ p.s0Clk = false ∧ p.s0Pwr = false ∧ p.s0RstN = false ∧ p.s1Clk = false
    ∧ p.s1Pwr = false ∧ p.s1Vsel = false ∧ State.reset.kbValid = false ∧ State.reset.irqOut = none ∧ State.reset.mgrIrq = false
    ∧ State.reset.oflAvail = false ∧ State.reset.oflRxReady = false ∧ State.reset.oflTx = none
    ∧ State.reset.s0Drives = false ∧ State.reset.s1Drives = false ∧ (∀ h, State.reset.hopFrames h = [])
    ∧ State.reset.fab.reads = [] ∧ State.reset.fab.writes = []

/-- R327 to R330 at reset: every bit of every region table entry is zero, so the table is good. -/
def Obligations.ResetTable : Prop :=
  State.reset.TableGood ∧ ∀ e : Fin 1024, State.reset.rt.entries[e] = ⟨0#64, 0#64, 0#64⟩

/-- Headline: whatever command runs, the region table stays good: no entry shows a reserved bit, and every enabled
entry covers a region of 4 KiB to 1 TiB that ends at or below 2^52 (R328 to R330, R336). -/
def Obligations.TableStaysGood : Prop :=
  ∀ s t : State, s.TableGood → step s = .next t → t.TableGood

/-! ## The register target port -/

/-- R61: a write to a register of page n by another instance, without TGT_MGR, or to a manager's register without it,
is refused: an error response, two counters, and nothing else. A read of such a register is refused in the same way. -/
def Obligations.PortIsolation : Prop :=
  ∀ (s : State) (a : Tgt) (n : Fin 128) (v : Word), s.portTakes a = true → s.pwr.boot = .ready → a.mgr = false →
    let Refused (o : Host.Outcome State Fault Refusal) : Prop :=
      ∃ t, o = .next t ∧ s.Turned t ∧ t.cnt = (((s.count 0x201E 1).count 0x201E 2).countInst a.inst 4).cnt
    (a.inst ≠ n →
      Refused (exec (.instErrClr a n) s) ∧ Refused (exec (.drain a n) s) ∧ Refused (exec (.switch a n) s)
      ∧ (∀ q f, Refused (exec (.ringInvalHold a n q f) s)) ∧ (∀ q, Refused (exec (.ringInvalRelease a n q) s))
      ∧ (∀ q, Refused (exec (.headWrite a n q v false) s)) ∧ (∀ q, Refused (exec (.arm a n q) s))
      ∧ Refused (exec (.dfStart a n v) s) ∧ Refused (exec (.dfAbort a n) s) ∧ Refused (exec (.dfData a n v) s)
      ∧ Refused (exec (.dfLast a n v) s) ∧ (∀ w, Refused (exec (.dfExpect a n w v) s)) ∧ Refused (exec (.dfCtxWrite a n v) s))
    ∧ Refused (exec (.faultClear a v) s) ∧ Refused (exec (.sensClr a v) s) ∧ Refused (exec (.tableFence a) s)
    ∧ Refused (exec (.snapshotRequest a) s) ∧ (∀ e, Refused (exec (.rtAddrWrite a e v) s))
    ∧ (∀ e, Refused (exec (.rtAttrWrite a e v) s))
    ∧ (∀ addr, fits a addr = true → (∃ r, regAt (addr / 8 * 8) = some r ∧ r ≠ .ident ∧ r.page ≠ some a.inst) →
        ∀ wr, Refused (exec (.registerWrite a addr v wr) s))

/-- R492, R60: before step 6 of R435 a register write at an answering port receives an error response, and nothing but
the access counter changes; in every start-up state so does an access of a size that R60 does not allow. By the model's choice (log entry
18): with both tandems failed (R26), too, and in ROM mode for what R433 does not list, while a write of FAULT_CLEAR takes effect there
(R460); and IDENT's own write is no error even before step 6. -/
def Obligations.PortBeforeReady : Prop :=
  ∀ (s : State) (a : Tgt) (n : Fin 128) (v : Word),
    let Errs (o : Host.Outcome State Fault Refusal) : Prop :=
      ∃ t, o = .next t ∧ s.Turned t ∧ t.cnt = (s.count 0x201E 1).cnt
    (s.portClean = true → a.width = .other → ∀ addr wr, Errs (exec (.registerWrite a addr v wr) s) ∧ Errs (exec (.drain a n) s))
    ∧ (s.portTakes a = true → s.pwr.boot ≠ .ready →
      Errs (exec (.drain a n) s) ∧ Errs (exec (.dfStart a n v) s) ∧ Errs (exec (.tableFence a) s) ∧ Errs (exec (.snapshotRequest a) s)
      ∧ (∀ e, Errs (exec (.rtAttrWrite a e v) s))
      ∧ (s.pwr.boot = .held ∨ s.pwr.boot = .dead → Errs (exec (.faultClear a v) s)
        ∧ ∃ t, exec (.registerWrite a (if a.width = .high then 4 else 0) v true) s = .next t ∧ s.AnsweredOnly t
          ∧ t = { s with pins := t.pins, cnt := t.cnt })
      ∧ (s.pwr.boot = .romMode → a.mgr = true → a.width ≠ .high → ∃ t, exec (.faultClear a v) s = .next t ∧ s.Answered t
        ∧ (∀ c : Fin 24, t.flt.causes.getLsbD c.val = (s.flt.causes.getLsbD c.val
            && (decide (c.val < 3) || !v.getLsbD c.val || s.standing.getLsbD c.val)))
        ∧ t = { s with pins := t.pins, pwr := t.pwr, cnt := t.cnt, flt := t.flt, tamper := t.tamper }))

/-- R3 and R4: IDENT reads its five fields wherever the port answers, in every life-cycle and start-up state, one half alone in a 32-bit
access; it is read-only: a write of it changes no register, and once the errors of R492 have ended it is answered without error. -/
def Obligations.IdentFixed : Prop :=
  ∀ (s : State) (a : Tgt) (v : Word), s.portTakes a = true →
    let addr := if a.width = .high then 4 else 0
    let ident : Word := 0x4B57#16 ++ 0x6400#16 ++ 0x42#8 ++ 0x01#8 ++ 0x0003#16
    s.readRegister a addr = some ident
    ∧ (∃ t, exec (.registerWrite a addr v false) s = .next t
        ∧ t.pins = { s.pins with tgtRsp := true, tgtErr := false
                                 tgtRdata := match a.width with
                                   | .low => 0x42010003#64
                                   | .high => 0x4B57640000000000#64
                                   | _ => ident }
        ∧ t = { s with pins := t.pins, cnt := t.cnt })
    ∧ (∃ t, exec (.registerWrite a addr v true) s = .next t ∧ t.readRegister a addr = some ident
        ∧ t = { s with pins := t.pins, cnt := t.cnt } ∧ (s.pwr.boot = .ready ∨ s.pwr.boot = .romMode → s.AnsweredOnly t))

/-- REGISTER_WRITE completes on a register without a row of its own: RT_LABEL takes the bytes written, and reads them
back (R60, R330). -/
def Obligations.LabelWrite : Prop :=
  ∀ (s : State) (a : Tgt) (e : Fin 1024) (v : Word), s.Served a none → a.width ≠ .high →
    ∃ t, exec (.registerWrite a (0x40000 + e.val * 32 + 16) v true) s = .next t ∧ s.AnsweredOnly t
      ∧ t.rt.entries[e] = { s.rt.entries[e] with label := merge a.width s.rt.entries[e].label v }
      ∧ (∀ f, f ≠ e → t.rt.entries[f] = s.rt.entries[f]) ∧ t.rt.fence = s.rt.fence
      ∧ t.readRegister a (0x40000 + e.val * 32 + 16) = some t.rt.entries[e].label
      ∧ t = { s with pins := t.pins, pwr := t.pwr, cnt := t.cnt, rt := t.rt }

/-! ## Instance pages -/

/-- R139, R140, R152: CLR clears CODE, MORE and PAGE; DRAIN covers every access issued so far; SWITCH changes the bank
and drains. Nothing else of the instance, and no other instance, changes. Once every covered write has its response and
its log bit is visible, BUSY clears; until then nothing changes. -/
def Obligations.PageWrites : Prop :=
  ∀ (s : State) (a : Tgt) (n : Fin 128),
    (s.Served a (some n) → a.width ≠ .high → (∃ t, exec (.instErrClr a n) s = .next t ∧ s.Answered t
      ∧ t.inst n = { s.inst n with errCode := 0, errMore := false, errPage := 0 } ∧ s.OtherInsts t n
      ∧ t = { s with pins := t.pins, pwr := t.pwr, cnt := t.cnt, insts := t.insts })
    ∧ (∃ t, exec (.drain a n) s = .next t ∧ s.Answered t ∧ t.inst n = { s.inst n with fence := some s.fab.nextId }
      ∧ s.OtherInsts t n ∧ t = { s with pins := t.pins, pwr := t.pwr, cnt := t.cnt, insts := t.insts })
    ∧ (∃ t, exec (.switch a n) s = .next t ∧ s.Answered t
      ∧ t.inst n = { s.inst n with logBank := !(s.inst n).logBank, fence := some s.fab.nextId }
      ∧ s.OtherInsts t n ∧ t = { s with pins := t.pins, pwr := t.pwr, cnt := t.cnt, insts := t.insts }))
    ∧ (∀ b, (s.inst n).fence = some b →
      (s.drained n b = true → ∃ t, exec (.drainComplete n) s = .next t ∧ t.inst n = { s.inst n with fence := none }
        ∧ s.OtherInsts t n ∧ t = { s with insts := t.insts })
      ∧ (∀ w ∈ s.fab.writes, w.inst = n → w.what.isLog = false → w.id < b → exec (.drainComplete n) s = .next s))

/-- R328, R330: RT_ADDR takes its BASE bits while the entry is not enabled, and answers an error and keeps its value
while it is; a checked RT_ATTR write with EN 1 enables the entry exactly when SIZE and the region's end are good, and
otherwise clears EN and sets BAD. -/
def Obligations.RegionWrites : Prop :=
  ∀ (s : State) (a : Tgt) (e : Fin 1024) (v : Word), s.Served a none → a.width = .full →
    let x := s.rt.entries[e]
    (x.en = false → ∃ t, exec (.rtAddrWrite a e v) s = .next t ∧ s.AnsweredOnly t
      ∧ t.rt.entries[e] = { x with addr := v &&& 0x000FFFFFFFFFF000#64 } ∧ (∀ f, f ≠ e → t.rt.entries[f] = s.rt.entries[f])
      ∧ t = { s with pins := t.pins, pwr := t.pwr, cnt := t.cnt, rt := t.rt })
    ∧ (x.en = true → ∃ t, exec (.rtAddrWrite a e v) s = .next t ∧ t.pins.tgtErr = true ∧ t.rt = s.rt)
    ∧ (∃ t, exec (.rtAttrWrite a e v) s = .next t ∧ s.AnsweredOnly t ∧ (∀ f, f ≠ e → t.rt.entries[f] = s.rt.entries[f])
      ∧ t.rt.entries[e].addr = x.addr ∧ t.rt.entries[e].label = x.label ∧ t.rt.fence = s.rt.fence
      ∧ (v.getLsbD 0 = true →
          t.rt.entries[e].attr = if goodGeometry x.addr v then v &&& 0x3FFFFF07#64 else (v &&& 0x3FFFFF06#64) ||| 8#64)
      ∧ t = { s with pins := t.pins, pwr := t.pwr, cnt := t.cnt, rt := t.rt })

/-- R337: TABLE_FENCE covers every access issued so far, and completes once each has finished. -/
def Obligations.TableFences : Prop :=
  ∀ (s : State) (a : Tgt), s.Served a none → a.width ≠ .high →
    (∃ t, exec (.tableFence a) s = .next t ∧ s.Answered t ∧ t.rt = { s.rt with fence := some s.fab.nextId }
      ∧ t = { s with pins := t.pins, pwr := t.pwr, cnt := t.cnt, rt := t.rt })
    ∧ ∀ b, s.rt.fence = some b →
      (s.finished b = true → exec .tableFenceComplete s = .next { s with rt := { s.rt with fence := none } })
      ∧ (∀ r ∈ s.fab.reads, r.id < b → exec .tableFenceComplete s = .next s)
      ∧ (∀ w ∈ s.fab.writes, w.id < b → exec .tableFenceComplete s = .next s)
      ∧ (∀ n o, (s.inst n).logOp = some o → o.chk < b → exec .tableFenceComplete s = .next s)

/-- R462, R464, R465, R468: REQ leaves COAST as it is, and latches every counter at once where no snapshot is being taken and becomes one pending request
otherwise, and an expired PERIOD does as REQ does; at its end the bank not in use serves the latched values, SNAP_SEQ has
counted and SNAP_TIME is the strobe's, and a pending request starts; a batch in process goes on with the bank it began with. -/
def Obligations.Snapshots : Prop :=
  ∀ s : State,
    (∀ a, s.Served a none → a.width ≠ .high → ∃ t, exec (.snapshotRequest a) s = .next t ∧ s.AnsweredOnly t
      ∧ t.cnt.busy = true ∧ t.cnt.pending = (s.cnt.busy || s.cnt.pending)
      ∧ t.cnt.latched = (if s.cnt.busy then s.cnt.latched else (s.count 0x201E 1).cnt.now)
      ∧ t = { s with pins := t.pins, pwr := t.pwr, cnt := t.cnt })
    ∧ (s.alive = true → s.cnt.period ≠ 0 → ∃ t, exec .snapshotPeriod s = .next t ∧ t.cnt.busy = true
      ∧ t.cnt.pending = (s.cnt.busy || s.cnt.pending)
      ∧ t.cnt.latched = (if s.cnt.busy then s.cnt.latched else s.cnt.now) ∧ t = { s with cnt := t.cnt })
    ∧ (s.cnt.busy = true → ∀ bad, ∃ t, exec (.snapshotDone bad) s = .next t ∧ t.cnt.bank = !s.cnt.bank
      ∧ t.cnt.seq = (s.cnt.seq + 1) % 2 ^ 64 ∧ t.cnt.time = s.cnt.strobe ∧ t.cnt.timeOk = s.cnt.strobeOk
      ∧ (bad = [] → (if t.cnt.bank then t.cnt.bank1 else t.cnt.bank0) = s.cnt.latched) ∧ t.cnt.busy = s.cnt.pending
      ∧ t.cnt.now = s.cnt.now ∧ t.dict = { s.dict with batch := s.dict.batch.map fun b => { b with view := b.view.or (some s.cnt) } }
      ∧ t = { s with cnt := t.cnt, free := t.free, dict := t.dict })

/-! ## Power and resets -/

/-- R55, R47, R491: die reset raises KB_ZEROISE and CAS_BYPASS, stops the card outputs, abandons jobs and fabric accesses,
and empties the key cache, the edge key table, the region table and every session. The vault, the tamper latches and
the life cycle's fuses stay. -/
def Obligations.DieReset : Prop :=
  ∀ s : State, s.pwr.dieReset = false → ∃ t, exec .dieRstNAssert s = .next t
    ∧ t.pwr.dieReset = true ∧ t.pins.kbZeroise = true ∧ t.pins.casBypass = true
    ∧ t.pins.s0Pwr = false ∧ t.pins.s0RstN = false ∧ t.pins.s0Clk = false ∧ t.pins.s1Pwr = false ∧ t.pins.s1Vsel = false
    ∧ t.pins.s1Clk = false ∧ t.pins.kb = none ∧ t.irqOut = none ∧ t.oflAvail = false ∧ t.mgrIrq = false
    ∧ t.pins.pmStateReq = s.pins.pmStateReq ∧ t.pins.wkAck = s.pins.wkAck
    ∧ t.jobs = [] ∧ t.fab.reads = [] ∧ t.fab.writes = [] ∧ t.keys.slots = [] ∧ t.keys.nodes = []
    ∧ t.edge.table = [] ∧ t.rt = Rt.reset ∧ (∀ k : Fin 8, t.eoa.sessions[k] = none) ∧ (∀ n, (t.inst n).state = .free)
    ∧ t.vault = s.vault ∧ t.tamper = s.tamper ∧ t.life.fuses = s.life.fuses ∧ t.life.fuse = s.life.fuse ∧ t.now = s.now ∧ t.pending = s.pending

/-- R81, R466, R47, R54: a power loss in RUN or COAST acts as a die reset, loses the event records in tandem memory and is
remembered; VDD_AON lost puts the block in OFF; AON_POR_N released there starts the sentry on its RC oscillator with
counts at zero and default tamper inputs. The vault and the tamper latches survive all three, but that an input which stands at its
active level when AON_POR_N is released is caught (R74). No SCLK_IN edge within 2 s leaves the sentry on its RC oscillator for good and is
reported; 64 edges in time put it on the crystal. That nothing ends the absence, and what else a release of AON_POR_N keeps, is the
model's choice (log entry 28). -/
def Obligations.PowerLost : Prop :=
  ∀ s : State,
    (s.pwr.state = .run ∨ s.pwr.state = .coast → s.pwr.dieReset = false → ∃ t, exec .powerLoss s = .next t
      ∧ t.pwr.powerLost = true ∧ t.pwr.dieReset = true ∧ t.jnl.heldEvents = [] ∧ t.jobs = [] ∧ t.keys.slots = []
      ∧ t.vault = s.vault ∧ t.tamper = s.tamper ∧ t.jnl.groups = s.jnl.groups)
    ∧ (s.pwr.state ≠ .off → ∃ t, exec .vddAonLost s = .next t ∧ t.pwr.state = .off ∧ t.pwr.retained = none
      ∧ t.pins.casBypass = true ∧ t.pins.pmDownAck = false ∧ t.pins.wkAck = false ∧ t.pmStateReqOut = none ∧ t.vault = s.vault
      ∧ t.tamper = s.tamper)
    ∧ (s.pwr.state = .off → ∃ t, exec .aonPorNRelease s = .next t ∧ t.sentry.onRc = true ∧ t.sentry.valid = 0
      ∧ t.sentry.invalid = 0 ∧ t.sentry.backoffs = 0 ∧ t.sentry.backoff = none
      ∧ (∀ i : Fin 8, t.tamper.cfg[i] = ⟨.tamper, false⟩) ∧ t.tamper.sens = s.tamper.sens
      ∧ t.pins.pmStateReq = 0b10#2 ∧ t.pins.wkAck = false ∧ t.jnl.s0Slept = false
      ∧ (s.pins.tmpLevel ^^^ s.tamper.highMask = 0#8 → t.vault = s.vault ∧ t.tamper.latched = s.tamper.latched)
      ∧ (∀ i, (s.pins.tmpLevel ^^^ s.tamper.highMask) &&& inputBit i ≠ 0#8 → s.tamper.latched &&& inputBit i = 0#8 →
          t.vault = Vault.zero ∧ t.tamper.latched &&& inputBit i ≠ 0#8))
    ∧ (s.pwr.state ≠ .off → s.sentry.sclkAbsent = false →
      (s.sentry.onRc = true → ∃ t, exec .clockSclkAbsent s = .next t ∧ t.sentry.sclkAbsent = true
        ∧ t.sentry.onRc = true ∧ exec .sclkInEdges t = .next t
        ∧ (s.alive = true → s.pwr.state = .run → t.flt.causes.getLsbD 19 = true)
        ∧ t = { s with sentry := t.sentry, jnl := t.jnl, flt := t.flt })
      ∧ (∃ t, exec .sclkInEdges s = .next t ∧ t = { s with sentry := { s.sentry with onRc := false } }))

/-- R467, R468: COAST is entered when its conditions have held for COAST_AFTER (log entry 28) and every poll has returned, with PM_STATE_REQ 01, IRQ_VALID low and the card clocks stopped but
for an initialisation (R47), and left with PM_STATE_REQ 10 once a cause has arrived. -/
def Obligations.Coast : Prop :=
  ∀ s : State,
    (s.coastReady = true → ∃ t, exec .coastEntry s = .next t ∧ t.pwr.state = .coast ∧ t.pins.pmStateReq = 0b01#2
      ∧ t.pwr.coastSince = some s.now ∧ t.irqOut = none ∧ t.pins.s0Clk = s.jnl.s0Init.isSome ∧ t.pins.s1Clk = s.card.init.isSome
      ∧ t = { s with pins := t.pins, pwr := t.pwr, irq := t.irq })
    ∧ (s.alive = true → s.pwr.state = .coast → s.pwr.coastCause = true → s.pwr.prep = none →
        ∃ t, exec .coastExit s = .next t ∧ t.pwr.state = .run ∧ t.pwr.coastCause = false ∧ t.pins.pmStateReq = 0b10#2
          ∧ t.vault = s.vault ∧ t.cfg = s.cfg)

/-- R469, R80 to R82: PM_DOWN_REQ, where the block runs, and FREEWHEEL_AFTER in COAST start the preparation, which closes every
session; PM_DOWN_REQ takes over one that the block has started, and is only noted where the block does not run (both are the model's
choice, log entry 28). After 10 ms every job still there is abandoned. At the end of steps 1 and 2, with nothing left to commit, the keys
are erased and the block is in FREEWHEEL, its outputs at their reset values, PM_DOWN_ACK high when the pin had asked; a preparation that
the block has started itself goes no further once a cause of R468 has come. A fall of PM_DOWN_REQ before that undoes the preparation,
whichever steps have run. -/
def Obligations.Freewheel : Prop :=
  ∀ s : State,
    (∃ t, exec .pmDownReq s = .next t ∧ t.pins.pmDownReq = true ∧ t.pwr.state = s.pwr.state ∧ t.vault = s.vault
      ∧ (s.alive = true → s.pwr.prep = none →
          t.pwr.prep = some ⟨true, false, false, []⟩ ∧ (∀ k : Fin 8, t.eoa.sessions[k] = none) ∧ t.fetches = false)
      ∧ (∀ p, s.alive = true → s.pwr.prep = some p → t = { s with
          pins := { s.pins with pmDownReq := true }, pwr := { s.pwr with prep := some { p with byPin := true } } })
      ∧ (s.alive = false → t = { s with pins := { s.pins with pmDownReq := true } }))
    ∧ (s.mayFreewheel = true → ∃ t, exec .freewheelAfter s = .next t ∧ t.pwr.prep = some ⟨false, false, false, []⟩
      ∧ (∀ k : Fin 8, t.eoa.sessions[k] = none) ∧ t.fetches = false ∧ t.pwr.state = s.pwr.state ∧ t.vault = s.vault)
    ∧ (∀ p, s.pwr.prep = some p → p.jobsOver = false → ∃ t, exec .freewheelJobLimit s = .next t
      ∧ t.pwr = { s.pwr with prep := some { p with
          jobsOver := true, abandoned := (s.jobs.filter fun j => j.ending.isNone).map (·.id) } }
      ∧ t.jobs.map (·.id) = s.jobs.map (·.id) ∧ (∀ j ∈ t.jobs, j.ending = none → j.phase = .draining ∧ j.engine = none)
      ∧ t.keys = s.keys ∧ t.vault = s.vault ∧ t.rt = s.rt ∧ t.cfg = s.cfg)
    ∧ (∀ p, s.pwr.prep = some p → p.byPin = false → s.pwr.coastCause = true → exec .freewheelEntry s = .next s)
    ∧ (∀ p, s.pwr.prep = some p → s.prepOver p = true → s.committed = true → (p.byPin = false → s.pwr.coastCause = false) →
      ∃ t, exec .freewheelEntry s = .next t ∧ t.pwr.state = .freewheel ∧ t.pwr.prep = none ∧ t.keys.slots = [] ∧ t.edge.table = [] ∧ t.jobs = [] ∧ t.fab.reads = []
      ∧ t.fab.writes = [] ∧ (∀ g, (t.sq g).slice = []) ∧ (∀ q, (t.cq q).overflow = []) ∧ t.portAnswers = false
      ∧ t.irqOut = none ∧ t.mgrIrq = false ∧ t.oflAvail = false
      ∧ t.pins = { s.pins with
          pmDownAck := p.byPin, pmStateReq := if p.wake then 0b10#2 else 0b00#2, casBypass := true, kbZeroise := true, kb := none
          s0Pwr := false, s0RstN := false, s0Clk := false, s1Pwr := false, s1Vsel := false, s1Clk := false, dbgPermit := false
          tgtRsp := false, tgtErr := false, tgtRdata := 0#64 })
    ∧ (∀ p, s.pwr.prep = some p → p.byPin = true → s.dict.waiting = [] → s.dict.batch = none → ∀ r x,
        ∃ t, exec (.pmDownReqFall r x) s = .next t ∧ t.pins.pmDownReq = false ∧ t.pwr.prep = none ∧ t.pwr.state = s.pwr.state
          ∧ t.pins.pmDownAck = s.pins.pmDownAck)

/-- R475, R477: a whole frame judged in FREEWHEEL outside back-off either is valid, and then advances the wake counter to its
value and asks for RUN, or is invalid, and then is counted; sixteen within 60 s bring a back-off of BACKOFF_TIME, which
its expiry ends, and in which a frame that begins under 4 s after the last verification is invalid unread. Frames in RUN are only counted (R73). Bytes join the frame until WK_LAST (R72). -/
def Obligations.WakeFrames : Prop :=
  ∀ (s : State) (b : Bytes), s.pwr.state ≠ .off → s.sentry.rxLast = false →
    let whole := s.sentry.rx = [] ∧ s.sentry.rxAt = none ∧ b ≠ [] ∧ b.length < 65 ∧ 352 ∉ s.flt.fifo
    let idle := { s.pins with wkAck := false }
    (∀ held, ∃ t, exec (.wakeFrame b false held) s = .next t ∧ t.sentry = { s.sentry with
        rx := s.sentry.rx ++ b, rxAt := if b = [] then s.sentry.rxAt else s.sentry.rxAt.or (some s.now) }
      ∧ t.pins = { s.pins with wkAck := held && (s.pins.wkAck || !b.isEmpty) } ∧ t = { s with sentry := t.sentry, pins := t.pins })
    ∧ (whole → s.pwr.state = .freewheel → s.sentry.backoff = none → s.wakeOk b = true →
      ∃ t, exec (.wakeFrame b true false) s = .next t ∧ t.pins = { idle with pmStateReq := 0b10#2 }
        ∧ t.sentry.valid = s.sentry.valid + 1 ∧ t.vault = (s.setCounter s.cfg.wakeCounter (wakeFv b)).vault
        ∧ t.sentry.invalid = s.sentry.invalid ∧ t.sentry.rx = [])
    ∧ (whole → s.pwr.state = .freewheel → s.sentry.backoff = none → s.wakeOk b = false →
      ∃ t, exec (.wakeFrame b true false) s = .next t ∧ t.sentry.invalid = s.sentry.invalid + 1 ∧ t.vault = s.vault
        ∧ t.sentry.lastVerify = some s.now ∧ t = { s with sentry := t.sentry, pins := idle })
    ∧ (whole → s.pwr.state = .freewheel → s.sentry.backoff ≠ none → (∃ u, s.sentry.lastVerify = some u ∧ s.now < u + 4 * 10 ^ 9) →
      exec (.wakeFrame b true false) s = .next { s with pins := idle, sentry := { s.sentry with invalid := s.sentry.invalid + 1 } })
    ∧ (whole → s.pwr.state = .run → s.pwr.prep = none → s.pwr.dieReset = false →
      exec (.wakeFrame b true false) s = .next { s with pins := idle, cnt := (s.count 0x2018 1).cnt })
    ∧ (s.sentry.backoffDue = true → ∃ t, exec .wakeBackoff s = .next t ∧ t.sentry.backoffs = s.sentry.backoffs + 1
      ∧ t.sentry.backoff = some (s.now + s.cfg.backoffTime * 10 ^ 9)
      ∧ t = { s with sentry := t.sentry, jnl := t.jnl, flt := s.flt.withLogs t.flt })
    ∧ exec .backoffEnd s = .next { s with sentry := { s.sentry with backoff := none } }

/-! ## Tamper, sensors, the vault -/

/-- R75, R51, R56, R86: a caught tamper-class input, VBAT lost, SCAN_MODE in FIELD, a shuffle that finds a bad check word
or a non-zero word outside the map: each zeroes the vault, empties the edge key table and raises KB_ZEROISE. -/
def Obligations.VaultZeroed : Prop :=
  ∀ s : State,
    let Zeroed (o : Host.Outcome State Fault Refusal) (f : State → Prop) : Prop :=
      ∃ t, o = .next t ∧ t.vault = Vault.zero ∧ t.edge.table = [] ∧ t.pins.kbZeroise = true ∧ t.life = s.life
        ∧ t.rt = s.rt ∧ t.cfg = s.cfg ∧ t.pwr = s.pwr ∧ f t
    (∀ i st, s.inputClass i = .tamper → s.tamper.latched &&& inputBit i = 0#8 →
      Zeroed (exec (.tamper i st) s) fun t => t.tamper = { s.tamper with latched := s.tamper.latched ||| inputBit i })
    ∧ Zeroed (exec .vbatLoss s) (fun t => t.tamper = s.tamper)
    ∧ (s.life.fuse = .field → Zeroed (exec .scanModeRise s) fun t => t.tamper = s.tamper)
    ∧ (s.pwr.state ≠ .off → ∀ flips cells, (s.vault.upset flips cells).sound = false →
      Zeroed (exec (.shuffle flips cells) s) fun t => t.tamper = s.tamper)

/-- R115: the erasure that every alarm of class KEYS or TAMPER performs leaves no key slot, no intermediate node and no
edge key. -/
def Obligations.ErasureLeavesNoKey : Prop :=
  ∀ (s : State) (e : Nat), (s.eraseKeys e).keys.slots = [] ∧ (s.eraseKeys e).keys.nodes = []
    ∧ (s.eraseKeys e).edge.table = [] ∧ (s.eraseKeys e).vault = s.vault

/-- R456, R455, R56: a caught alarm-only input is latched and nothing is erased; SENS_CLK outside FIELD likewise. A SCAN_MODE rise
outside FIELD erases the key cache, raises KB_ZEROISE and isolates the vault, which stays; that the isolation is a flag which a die reset
keeps, and that the edge keys stay, is the model's choice (log entry 26). -/
def Obligations.Contained : Prop :=
  ∀ s : State,
    (∀ i st, s.inputClass i = .alarmOnly → s.tamper.latched &&& inputBit i = 0#8 → ∃ t, exec (.alarmInput i st) s = .next t
      ∧ t.tamper = { s.tamper with latched := s.tamper.latched ||| inputBit i }
      ∧ t = { s with pins := t.pins, tamper := t.tamper, jnl := t.jnl, sentry := t.sentry, flt := t.flt })
    ∧ (∀ st, s.pwr.state ≠ .off → s.life.fuse ≠ .field → s.tamper.sens &&& 0b0010#4 = 0#4 →
      ∃ t, exec (.sensor 1 st) s = .next t ∧ t.tamper = { s.tamper with sens := s.tamper.sens ||| 0b0010#4 }
        ∧ t = { s with pins := t.pins, tamper := t.tamper, jnl := t.jnl, sentry := t.sentry, flt := t.flt })
    ∧ (s.life.fuse ≠ .field → ∃ t, exec .scanModeRise s = .next t ∧ t.pins.kbZeroise = true ∧ t.keys.slots = []
      ∧ t.pwr.scan = true ∧ t.vault = s.vault ∧ t.edge.table = s.edge.table)

/-- R84, R326, R113: a shuffle that finds nothing wrong takes mask and permutation key from the mask reserve, which holds 256
new bytes then, and masks every slot that no job names again, its key and the rest of it the same; nothing else of the vault, the keys or
the tamper state changes. Which bytes of the reserve these are, and their 32-byte sizes, is the model's choice (log entries 43 and 26). -/
def Obligations.Shuffle : Prop :=
  ∀ s : State, s.pwr.state ≠ .off → s.vault.sound = true → s.sentry.maskReserve.length = 256 →
    ∃ t, exec (.shuffle [] []) s = .next t
    ∧ t.vault = { s.vault with mask := slice s.sentry.maskReserve 0 32, permKey := slice s.sentry.maskReserve 32 32 }
    ∧ t.sentry.maskReserve.length = 256 ∧ t.life = s.life ∧ t.tamper = s.tamper ∧ t.rt = s.rt
    ∧ (∀ i x, s.keys.slot i = some x → x.shareA.length = x.shareB.length → ∃ y, t.keys.slot i = some y ∧ y.key = x.key
      ∧ y = { x with shareA := y.shareA, shareB := y.shareB } ∧ ((∃ j ∈ s.jobs, j.key = some i) → y = x))
    ∧ t.keys.slots.map (·.1) = s.keys.slots.map (·.1) ∧ t.keys = { s.keys with slots := t.keys.slots }

/-- R460: a write of FAULT_CLEAR clears exactly the named causes whose condition does not hold, and the latches of the
named sensors that are not tripped; the tamper latches stay. -/
def Obligations.FaultClears : Prop :=
  ∀ (s : State) (a : Tgt) (v : Word), s.Served a none → a.width ≠ .high →
    let Cleared (o : Host.Outcome State Fault Refusal) : Prop :=
      ∃ t, o = .next t ∧ s.Answered t
        ∧ (∀ c : Fin 24, t.flt.causes.getLsbD c.val = (s.flt.causes.getLsbD c.val
            && (decide (c.val < 3) || !v.getLsbD c.val || s.standing.getLsbD c.val)))
        ∧ (∀ k : Fin 4, t.tamper.sens.getLsbD k.val = (s.tamper.sens.getLsbD k.val
            && (!v.getLsbD (24 + k.val) || s.pins.sensLevel.getLsbD k.val)))
        ∧ t.tamper.latched = s.tamper.latched ∧ t.tamper.cfg = s.tamper.cfg
        ∧ t = { s with pins := t.pins, pwr := t.pwr, cnt := t.cnt, flt := t.flt, tamper := t.tamper }
    Cleared (exec (.faultClear a v) s) ∧ Cleared (exec (.sensClr a v) s)

/-! ## Time -/

/-- R231, R78: a TB_CYCLE pulse at least TC_CYCLE_MIN after the last accepted one is a cycle start, which the windows follow while TB_VALID
is high; another is ignored and counted. A fall of TB_VALID or a backward step of more than 1 µs is logged, sets its cause, and ends the alignment. -/
def Obligations.TimeBase : Prop :=
  ∀ s : State, s.alive = true →
    (s.cycleAccepted = true → ∃ t, exec .tbCycle s = .next t ∧ t.disp.lastCycle = some s.now
      ∧ t.disp.aligned = (s.disp.aligned || s.pins.tbValid)
      ∧ (∀ u, s.disp.lastCycle = some u → t.disp.seen = s.now - u)
      ∧ t.disp.winBase = (if s.pins.tbValid = true ∨ s.disp.winBase = none then some s.now else s.disp.winBase)
      ∧ t = { s with disp := t.disp })
    ∧ (s.cycleAccepted = false → exec .tbCycle s = .next (s.count 0x201F 1))
    ∧ (∀ v tm, s.timeLost v tm = true → ∃ t, exec (.timeLost v tm) s = .next t
      ∧ t.pins = { s.pins with tbValid := v, tbTime := tm } ∧ t.disp = { s.disp with aligned := false }
      ∧ t.flt.causes.getLsbD 18 = true ∧ t.jnl.events.length ≤ s.jnl.events.length + 1
      ∧ (∃ e ∈ t.jnl.events, e.code = 0x0011) ∧ t = { s with pins := t.pins, disp := t.disp, flt := t.flt, jnl := t.jnl, cnt := t.cnt })


/-! ## Direct feed -/

/-- R290 to R297: 64-bit writes of the direct-feed registers. DF_ABORT discards the session; DF_CTX is taken outside OPEN
and BUSY; DF_START opens a session of TOTAL bytes where the instance is ACTIVE, the context is set up, the key resolves
and an engine and a buffer are free, with a keyed session masking its key anew (R113), and NO_BUFFER where none is; DF_DATA joins eight bytes and DF_LAST its k bytes, within TOTAL and with room;
outside OPEN both, and DF_EXPECT, are ignored. A write of fewer than 64 bits has an error response and no effect, where the register takes
64 bits alone. -/
def Obligations.DirectFeedWrites : Prop :=
  ∀ (s : State) (a : Tgt) (n : Fin 128) (v : Word) (w : Fin 8), s.Served a (some n) →
    (a.width ≠ .full → ∀ c ∈ [Instr.dfStart a n v, .dfAbort a n, .dfData a n v, .dfLast a n v, .dfExpect a n w v],
      ∃ t, exec c s = .next t ∧ s.Turned t)
    ∧ (a.width = .full →
    let d := (s.inst n).df
    let s0 := s.updDf n Df.idle
    let k := bits v.toNat 58 56
    let h := bits v.toNat 63 32
    let clean := ∀ b, d.buffer = some b → 320 + b ∉ s.flt.fifo
    let Gives (o : Host.Outcome State Fault Refusal) (f : Df → Prop) : Prop :=
      ∃ t, o = .next t ∧ s.Answered t ∧ f (t.inst n).df ∧ t.inst n = { s.inst n with df := (t.inst n).df }
        ∧ s.OtherInsts t n ∧ t = { s with pins := t.pins, pwr := t.pwr, cnt := t.cnt, insts := t.insts }
    Gives (exec (.dfAbort a n) s) (· = { Df.reset with alg := d.alg, compare := d.compare, outLen := d.outLen })
    ∧ Gives (exec (.dfCtxWrite a n v) s) (· = if d.running then d else
        { d with alg := bits v.toNat 7 0, compare := v.getLsbD 8, outLen := bits v.toNat 22 16 })
    ∧ (v.getLsbD 24 = true → Gives (exec (.dfStart a n v) s) (fun e => e.state = .idle ∧ e.msg = [] ∧ e.engine = none))
    ∧ (v.getLsbD 24 = false → (s.inst n).state ≠ .active →
        Gives (exec (.dfStart a n v) s) (fun e => e.state = .failed ∧ e.err = 4))
    ∧ (∀ key, v.getLsbD 24 = false → (s.inst n).state = .active → d.setupOk (h != 0) = true → s0.dfKey n h = .ok key →
        (s0.dfEngine []).isSome → s0.dfBuffer.isSome →
        ∃ t, exec (.dfStart a n v) s = .next t ∧ s.Answered t ∧ s.OtherInsts t n
          ∧ t.inst n = { s.inst n with df := { Df.reset with
              alg := d.alg, compare := d.compare, outLen := d.outLen, state := .openS, total := bits v.toNat 23 0, key := key
              engine := (s0.dfEngine []).map (·.val), buffer := s0.dfBuffer } }
          ∧ (key = none → t.keys = s.keys ∧ t.sentry = s.sentry)
          ∧ t = { s with pins := t.pins, pwr := t.pwr, cnt := t.cnt, insts := t.insts, keys := t.keys, sentry := t.sentry })
    ∧ (∀ key, v.getLsbD 24 = false → (s.inst n).state = .active → d.setupOk (h != 0) = true → s0.dfKey n h = .ok key →
        s0.dfEngine [] = none ∨ s0.dfBuffer = none →
        Gives (exec (.dfStart a n v) s) (fun e => e.state = .failed ∧ e.err = 3))
    ∧ (∀ err, v.getLsbD 24 = false → (s.inst n).state = .active → d.setupOk (h != 0) = true → s0.dfKey n h = .error err →
        Gives (exec (.dfStart a n v) s) (fun e => e.state = .failed ∧ e.err = err))
    ∧ (d.state = .openS → clean → 8 ≤ d.free → d.msg.length + 8 ≤ d.total →
        Gives (exec (.dfData a n v) s) (· = { d with msg := d.msg ++ toLe 8 v.toNat, buffered := d.buffered + 8 }))
    ∧ (d.state = .openS → clean → 8 ≤ d.free → d.total < d.msg.length + 8 →
        Gives (exec (.dfData a n v) s) (fun e => e.state = .failed ∧ e.err = 1))
    ∧ (d.state = .openS → clean → d.free < 8 → Gives (exec (.dfData a n v) s) (fun e => e.state = .failed ∧ e.err = 2))
    ∧ (d.state = .openS → clean → 8 ≤ d.free → d.msg.length + k = d.total → d.expectOk = true →
        Gives (exec (.dfLast a n v) s) (fun e => e.state = .busy ∧ e.msg = d.msg ++ toLe k v.toNat))
    ∧ (d.state = .openS → clean → 8 ≤ d.free → d.msg.length + k ≠ d.total →
        Gives (exec (.dfLast a n v) s) (fun e => e.state = .failed ∧ e.err = 1))
    ∧ (d.state = .openS → d.compare = true →
        Gives (exec (.dfExpect a n w v) s) (· = { d with expect := d.expect.set w (some v) }))
    ∧ (d.state ≠ .openS → Gives (exec (.dfData a n v) s) (· = d) ∧ Gives (exec (.dfLast a n v) s) (· = d)
        ∧ Gives (exec (.dfExpect a n w v) s) (· = d)))

/-- R295, R298, R299: a BUSY session ends DONE with its result, the digest or HMAC cut to OUT_LEN in DF_RESULT, or the
verdict 1 or 2 of a compare; three runs that disagree fail it with 9 and poison with 8. Context and buffer return. One run that
disagrees is a strike on the engine, and the session goes on elsewhere, waits for a context while the engines left have none free (R236), or
fails with 9. -/
def Obligations.DirectFeedEnds : Prop :=
  ∀ (s : State) (n : Fin 128) (g : Fin 36), s.NoneWait → (s.inst n).df.engine = some g.val →
    let d := (s.inst n).df
    let out := d.formed (s.dfKeyBytes d)
    let Ends (o : Host.Outcome State Fault Refusal) (f : State → Df → Prop) : Prop :=
      ∃ t, o = .next t ∧ f t (t.inst n).df ∧ t.inst n = { s.inst n with df := (t.inst n).df } ∧ s.OtherInsts t n
        ∧ (d.key = none → t.keys = s.keys ∧ t.sentry = s.sentry) ∧ t.keys.slots.map (·.1) = s.keys.slots.map (·.1)
        ∧ t = { s with cnt := t.cnt, insts := t.insts, units := t.units, jobs := t.jobs, keys := t.keys, sentry := t.sentry }
    let Left (e : Df) : Prop := e.engine = none ∧ e.buffer = none ∧ e.msg = [] ∧ e.key = none
    (d.state = .busy → s.units.eng[g].inject = false → d.compare = false → Ends (exec (.dfDone n .formed) s) fun _ e =>
      e.state = .done ∧ Left e ∧ ∀ w : Fin 8, e.result[w] = BitVec.ofNat 64 (le (padTo 64 out) (8 * w.val) 8))
    ∧ (d.state = .busy → s.units.eng[g].inject = false → d.compare = true → Ends (exec (.dfDone n .formed) s) fun _ e =>
      e.state = .done ∧ Left e ∧ (∀ w : Fin 8, e.expect[w] = none) ∧ e.result[0] =
        if out = (d.expect.toList.map fun x => toLe 8 (x.getD 0#64).toNat).flatten.take d.outLen then 1#64 else 2#64)
    ∧ (d.running = true → Ends (exec (.dfDone n .threeDisagreed) s) fun _ e => e.state = .failed ∧ e.err = 9 ∧ Left e)
    ∧ (d.running = true → Ends (exec (.dfDone n .poisoned) s) fun _ e => e.state = .failed ∧ e.err = 8 ∧ Left e)
    ∧ (d.running = true → Ends (exec (.dfDone n .mismatch) s) fun t e =>
      t.units.eng[g].strikes = s.units.eng[g].strikes + 1 ∧
        ((e.state = .failed ∧ e.err = 9 ∧ Left e)
          ∨ (e.state = d.state ∧ e.msg = d.msg ∧ e.failedOn = d.failedOn ++ [g.val] ∧ ((∃ h, e.engine = some h ∧ h ≠ g.val)
            ∨ (e.engine = none ∧ ∃ h ∈ s.engines .de none, h.val ∉ d.failedOn ++ [g.val])))))

/-! ## Rings -/

/-- R174 to R176: a hold keeps of the cached entries those that end before FIRST and marks a read in flight for discard;
a release lifts it; DONE is set once no such read is left. A write of either that is not 64 bits wide has an error response and no effect
(R174). -/
def Obligations.RingHolds : Prop :=
  ∀ (s : State) (n : Fin 128) (g : Fin 512),
    (∀ (a : Tgt) (i : Fin 16) (first : Half), s.Served a (some n) → a.width ≠ .full →
      (∃ t, exec (.ringInvalHold a n i first) s = .next t ∧ s.Turned t) ∧ ∃ t, exec (.ringInvalRelease a n i) s = .next t ∧ s.Turned t)
    ∧ (∀ (a : Tgt) (i : Fin 16) (first : Half), s.Served a (some n) → a.width = .full → s.sqOf n i.val = some g →
      (∃ t, exec (.ringInvalHold a n i first) s = .next t ∧ s.Answered t
        ∧ (t.sq g).hold = some first ∧ (t.sq g).slice <+: (s.sq g).slice
        ∧ (∀ e ∈ (t.sq g).slice, ((e.at_ - (s.sq g).consumed).toNat + e.bytes.length / 32 : Int) ≤ sdiff first (s.sq g).consumed)
        ∧ ((s.sq g).reading.isSome → (t.sq g).reading.any (·.discard) = true)
        ∧ (t.sq g).consumed = (s.sq g).consumed ∧ (t.sq g).state = (s.sq g).state ∧ (∀ h, h ≠ g → t.sq h = s.sq h)
        ∧ t.inst n = { s.inst n with
            invalSq := i.val, invalAt := (s.sq g).consumed, invalDone := false
            wasEligible := (s.inst n).wasEligible && (s.sqsOf n).any fun h => (t.sq h).slice != [] }
        ∧ s.OtherInsts t n
        ∧ t = { s with pins := t.pins, pwr := t.pwr, cnt := t.cnt, insts := t.insts, sqs := t.sqs })
      ∧ (∃ t, exec (.ringInvalRelease a n i) s = .next t ∧ s.Answered t ∧ (t.sq g).hold = none
        ∧ (t.sq g).slice = (s.sq g).slice ∧ (t.sq g).consumed = (s.sq g).consumed ∧ (t.inst n).invalSq = i.val
        ∧ (t.inst n).invalDone = false ∧ (∀ h, h ≠ g → t.sq h = s.sq h) ∧ t.vault = s.vault ∧ t.rt = s.rt ∧ t.cfg = s.cfg
        ∧ t.keys = s.keys))
    ∧ (s.sqOf n (s.inst n).invalSq = some g → (s.sq g).reading.any (·.discard) = false →
        ∃ t, exec (.ringInvalDone n) s = .next t ∧ t.inst n = { s.inst n with invalDone := true } ∧ s.OtherInsts t n
          ∧ t = { s with insts := t.insts })
    ∧ (s.sqOf n (s.inst n).invalSq = some g → (s.sq g).reading.any (·.discard) = true →
        exec (.ringInvalDone n) s = .next s)

/-- R181, R183, R184: HEAD takes a value within the entries written, and any other value only sets HEAD_ERR; ARM arms,
and raises the interrupt at once where its conditions hold, as COMPLETION_INTERRUPT and an expired IRQ_DELAY do, on the vector in
force (R161); in COAST it waits; R62: the accepted interrupt gives way to the oldest one waiting. Poison in the overflow area fails
the instance (R446). -/
def Obligations.CompletionRing : Prop :=
  ∀ (s : State) (n : Fin 128) (q : Fin 256), (s.cq q).owner = some n →
    let c := s.cq q
    let fired (c : Cq) : Cq := { c with armed := false, counted := 0, timer := false, expired := false }
    let v := (n, c.irqNow.vector)
    let Raised (t : State) : Prop := (t.irq.shown = some v ∨ v ∈ t.irq.waiting)
      ∧ (s.pwr.state ≠ .coast → t.irqOut.isSome ∧ (s.irq.shown = none → s.irq.waiting = [] → t.irqOut = some v))
    (∀ (a : Tgt) (j : Fin 8) (v : Word), s.Served a (some n) → a.width ≠ .high → s.cqOf n j.val = some q →
      let h := v.setWidth 32
      ((h - c.head).toNat ≤ (c.tail - c.head).toNat →
        (∀ bad, ∃ t, exec (.headWrite a n j v bad) s = .next t ∧ (t.cq q).head = h ∧ (t.cq q).headErr = false
          ∧ (bad = true → c.overflow ≠ [] → (s.inst n).state = .active → (t.inst n).state = .failed)
          ∧ t.vault = s.vault ∧ t.rt = s.rt ∧ t.cfg = s.cfg)
        ∧ (c.overflow = [] → (∀ g ∈ s.sqsOf n, (s.sq g).state ≠ .draining ∧ (s.sq g).state ≠ .deferred ∧ (s.sq g).bad = none) →
          ∃ t, exec (.headWrite a n j v false) s = .next t ∧ s.Answered t
            ∧ t.cq q = { c with head := h, headErr := false, stalled := c.stalled && h == c.head }
            ∧ (∀ p, p ≠ q → t.cq p = s.cq p) ∧ t = { s with pins := t.pins, pwr := t.pwr, cnt := t.cnt, cqs := t.cqs }))
      ∧ ((c.tail - c.head).toNat < (h - c.head).toNat → ∃ t, exec (.headWrite a n j v false) s = .next t ∧ s.Answered t
          ∧ t.cq q = { c with headErr := true } ∧ (∀ p, p ≠ q → t.cq p = s.cq p)
          ∧ t = { s with pins := t.pins, pwr := t.pwr, cnt := t.cnt, cqs := t.cqs })
      ∧ ({ c with armed := true }.irqReady = false → ∃ t, exec (.arm a n j) s = .next t ∧ s.Answered t
          ∧ t.cq q = { c with armed := true } ∧ (∀ p, p ≠ q → t.cq p = s.cq p)
          ∧ t = { s with pins := t.pins, pwr := t.pwr, cnt := t.cnt, cqs := t.cqs })
      ∧ ({ c with armed := true }.irqReady = true → ∃ t, exec (.arm a n j) s = .next t ∧ s.Answered t ∧ Raised t
          ∧ t.cq q = fired c ∧ (∀ p, p ≠ q → t.cq p = s.cq p)
          ∧ t = { s with pins := t.pins, pwr := t.pwr, cnt := t.cnt, cqs := t.cqs, irq := t.irq }))
    ∧ (c.irqReady = true → ∃ t, exec (.completionInterrupt q) s = .next t ∧ Raised t ∧ t.cq q = fired c
        ∧ (∀ p, p ≠ q → t.cq p = s.cq p) ∧ t = { s with cqs := t.cqs, irq := t.irq })
    ∧ (c.irqReady = false → exec (.completionInterrupt q) s = .next s)
    ∧ (c.timer = true → c.irqNow.delay ≠ 0 → c.armed = true → c.counted ≠ 0 → c.acks = [] →
        ∃ t, exec (.irqDelay q) s = .next t ∧ Raised t ∧ t.cq q = fired c ∧ (∀ p, p ≠ q → t.cq p = s.cq p)
          ∧ t = { s with cqs := t.cqs, irq := t.irq })
    ∧ (s.irq.shown.isSome → exec .irqAccept s = .next { s with irq := ⟨s.irq.waiting.head?, s.irq.waiting.drop 1⟩ })
    ∧ (s.irq.shown = none → exec .irqAccept s = .next s)

/-- R169, R171, R231: a poll that is due reads the aligned 64-byte line with the ring's next unit, after the region check;
a BULK poll beyond 25 in the interval waits; a window polls its SQ once a cycle; a new interval starts with what waited. -/
def Obligations.RingPolls : Prop :=
  ∀ (s : State) (g : Fin 512) (n : Fin 128),
    let q := s.sq g
    let pos := q.next.toNat % q.size
    let line := q.base + (pos - pos % 2) * 32
    let Due := q.owner = some n ∧ s.mayPoll g = true ∧ g ∉ s.disp.waiting ∧ split4k line 64 = [(line, 64)]
      ∧ 8 * homePort n + flag (s.inst n).isTc ∉ s.flt.fifo
    let goes := (s.inst n).isTc = true ∨ s.disp.polls < 25
    let Polls (o : Host.Outcome State Fault Refusal) (c : Cfg) : Prop :=
      ∃ t, o = .next t
        ∧ t.sq g = { q with reading := some ⟨[s.fab.nextId], q.next, 2 - pos % 2, 32 * (pos % 2), false⟩ }
        ∧ (∀ h, h ≠ g → t.sq h = s.sq h)
        ∧ t.fab = { s.fab with nextId := s.fab.nextId + 1, reads := s.fab.reads ++
            [⟨s.fab.nextId, n, (s.inst n).isTc, homePort n, line, 64, .ring g, s.mayRead (homePort n), false⟩] }
        ∧ t.disp = { s.disp with polls := s.disp.polls + 1 } ∧ t.cfg = c
        ∧ t = { s with sqs := t.sqs, fab := t.fab, disp := t.disp, cnt := t.cnt, cfg := t.cfg }
    (Due → goes → s.windowNear g = false → s.granted n line 64 false = true → Polls (exec (.sqPoll g) s) s.cfg)
    ∧ (Due → ¬ goes → s.windowNear g = false →
      ∃ t, exec (.sqPoll g) s = .next t ∧ t.disp = { s.disp with waiting := s.disp.waiting ++ [g] }
        ∧ t = { s with disp := t.disp, cnt := t.cnt })
    ∧ (Due → goes → s.windowNear g = false → s.granted n line 64 false = false → q.walking = false →
      ∃ t, exec (.sqPoll g) s = .next t ∧ (t.sq g).state = .stopped ∧ (t.sq g).stopCause = 2 ∧ (t.sq g).reading = none)
    ∧ (s.windowNear g = true → exec (.sqPoll g) s = .next s)
    ∧ (∀ w : Fin 64, s.windowsTo w = [w] → s.cfg.windows[w].sq = g.val → Due → goes → s.granted n line 64 false = true →
      Polls (exec (.windowPoll w) s) { s.cfg with windows := s.cfg.windows.set w { s.cfg.windows[w] with polled := s.winStart } })
    ∧ (∀ w : Fin 64, s.windowDue w = false → exec (.windowPoll w) s = .next s)
    ∧ (s.disp.waiting = [] → ∃ t, exec .pollInterval s = .next t ∧ t.disp = { s.disp with polls := 0 }
      ∧ t = { s with disp := t.disp, cnt := t.cnt })
    ∧ (∃ t, exec .pollInterval s = .next t ∧ t.disp.waiting = (s.disp.waiting.filter s.mayPoll).drop 25 ∧ t.disp.polls ≤ 25
      ∧ t.disp.aligned = s.disp.aligned ∧ t.vault = s.vault ∧ t.rt = s.rt ∧ t.cfg = s.cfg)

/-- R170, R173, R176: a discarded read changes nothing of the slice; a DECODE or TARGET_ERR code stops the ring with
cause 3; a unit of the wrong phase ends the reading on; a single-unit entry that the read before had shown joins the
slice, and one not seen before is noted. The ring's instance may be raised to the lowest V (R234). -/
def Obligations.RingReturns : Prop :=
  ∀ (s : State) (g : Fin 512) (beats : List Beat) (r : RingRead), (s.sq g).reading = some r →
    answers beats (r.skip + 32 * r.units) = true → s.orphan g = none → s.allOut r.ids = true → s.flt.fifo = [] →
    (∀ x ∈ s.fab.reads, x.poison = false) →
    (s.sq g).again = false →
    let q := s.sq g
    let u0 := slice (beatData beats) r.skip 32
    let ret := exec (.ringReadReturn g beats none) s
    let Raised (t : State) : Prop := ∀ m, (s.inst m).vtime ≤ (t.inst m).vtime
      ∧ t.inst m = { s.inst m with wasEligible := (t.inst m).wasEligible, vtime := (t.inst m).vtime }
    let Clean := worst beats = .ok ∧ r.discard = false ∧ q.walking = false ∧ q.state = .enabled ∧ r.at_ = q.next
      ∧ r.units = 1 ∧ u0.length = 32
    (r.discard = true → q.walking = false → q.hold ≠ none → ∃ t, ret = .next t ∧ t.sq g = { q with reading := none }
      ∧ (∀ h, h ≠ g → t.sq h = s.sq h) ∧ (∀ x ∈ t.fab.reads, x.id ∉ r.ids) ∧ t.fab.writes = s.fab.writes ∧ Raised t
      ∧ t = { s with sqs := t.sqs, fab := t.fab, cnt := t.cnt, insts := t.insts })
    ∧ (r.discard = false → q.walking = false → worst beats = .decode ∨ worst beats = .targetErr →
      ∃ t, ret = .next t ∧ (t.sq g).state = .stopped ∧ (t.sq g).stopCause = 3
        ∧ (t.sq g).slice = q.slice ∧ (t.sq g).consumed = q.consumed ∧ (t.sq g).reading = none)
    ∧ (Clean → entryPhase u0 ≠ phaseAt r.at_ q.size → q.seen = [] →
      ∃ t, ret = .next t ∧ t.sq g = { q with reading := none }
        ∧ (∀ h, h ≠ g → t.sq h = s.sq h) ∧ Raised t ∧ t = { s with sqs := t.sqs, fab := t.fab, cnt := t.cnt, insts := t.insts })
    ∧ (Clean → entryPhase u0 = phaseAt r.at_ q.size → entryLen u0 = 1 → q.cached < 16 → 0 < q.size → (r.at_, 1) ∈ q.seen →
      ∃ t, ret = .next t ∧ (t.sq g).slice = q.slice ++ [⟨r.at_, u0, none⟩]
        ∧ (t.sq g).consumed = q.consumed ∧ t.vault = s.vault ∧ t.rt = s.rt ∧ t.cfg = s.cfg)
    ∧ (Clean → entryPhase u0 = phaseAt r.at_ q.size → entryLen u0 = 1 → 0 < q.size → (r.at_, 1) ∉ q.seen →
      ∃ t, ret = .next t ∧ (t.sq g).slice = q.slice ∧ (t.sq g).consumed = q.consumed)

/-- R187: at the abandonment every job of the SQ that has not run to its end is abandoned with the bytes it released, and all
are gone where no data write of any job is open; a shutdown with nothing left ends DISABLED, or ENABLED where an enable was deferred. -/
def Obligations.Shutdowns : Prop :=
  ∀ (s : State) (g : Fin 512), (s.sq g).state = .draining ∨ (s.sq g).state = .deferred →
    (∃ t, exec (.shutdownAbandon g) s = .next t ∧ (t.sq g).state = (s.sq g).state
      ∧ (∀ j ∈ t.jobs, j.sq = g → j.phase = .draining ∧ ((∀ k ∈ s.jobs, k.id = j.id → k.phase ≠ .draining) →
          j.engine = none ∧ j.pieces = [] ∧ ∃ m, j.ending = some (.aborted, m)))
      ∧ ((∀ i, s.dataOut i = false) → (∀ j ∈ s.jobs, j.sq = g → j.phase = .draining → j.ending.isSome) → ∀ j ∈ t.jobs, j.sq ≠ g) ∧ t.vault = s.vault ∧ t.rt = s.rt ∧ t.cfg = s.cfg)
    ∧ ((s.sq g).slice = [] → (s.sq g).walking = false → (s.sq g).bad = none → (∀ j ∈ s.jobs, j.sq ≠ g) →
      ∃ t, exec (.shutdownComplete g) s = .next t
        ∧ (t.sq g).state = (if (s.sq g).state = .deferred then .enabled else .disabled)
        ∧ (t.sq g).consumed = (s.sq g).consumed ∧ (∀ h, h ≠ g → t.sq h = s.sq h)
        ∧ t = { s with sqs := t.sqs, cqs := t.cqs, fab := t.fab, cnt := t.cnt, insts := t.insts, jobs := t.jobs
                       flt := t.flt, jnl := t.jnl, irq := t.irq })

/-! ## Dispatch and jobs -/

/-- R142, R164, R214, R228: a decision takes the whole run at the head of an eligible SQ: one job a member, in order, the
first started and the others waiting; the counter passes the run. A chain member starts when its turn has come. A PAD
only advances the counter. -/
def Obligations.Dispatches : Prop :=
  ∀ (s : State) (g : Fin 512) (n : Fin 128),
    (∀ (l : List Cached) (c : Fin 16) (e : Cached) (rest : List Cached), s.sqsOf n = [g] → s.eligible g = some (n, l, some c) →
      members l = e :: rest → e.poison = none → (opInfo (le e.bytes 2 2)).isSome → (∀ j ∈ s.jobs, j.id ≠ s.disp.nextJob) →
      let first := s.disp.nextJob
      let Runs (o : Host.Outcome State Fault Refusal) : Prop := ∃ t, o = .next t
        ∧ t.disp = { s.disp with nextJob := first + (members l).length }
        ∧ (t.sq g).slice = (s.sq g).slice.drop l.length
        ∧ ((s.sq g).bad = none → (t.sq g).consumed
            = (s.sq g).consumed + BitVec.ofNat 32 (l.map fun e => e.bytes.length / 32).sum)
        ∧ (t.inst n).outstanding = (s.inst n).outstanding + (members l).length
        ∧ (∃ j ∈ t.jobs, j.id = first ∧ j.raw = e.bytes ∧ j.inst = n ∧ j.sq = g ∧ j.seqr = some c
            ∧ j.hand = (s.inst n).hand ∧ j.phase = .assigned ∧ j.waiting = false ∧ j.member = 0 ∧ j.chain = first)
        ∧ (∀ (k : Nat) (h : k < rest.length), ∃ j ∈ t.jobs, j.id = first + (k + 1) ∧ j.raw = rest[k].bytes ∧ j.inst = n
            ∧ j.sq = g ∧ j.phase = .assigned ∧ j.waiting = true ∧ j.member = k + 1 ∧ j.chain = first)
        ∧ t.vault = s.vault ∧ t.rt = s.rt ∧ t.cfg = s.cfg ∧ t.eoa = s.eoa
      (s.bulkInsts = [n] → Runs (exec (.dispatch none) s))
      ∧ ((s.inst n).isTc = true → s.rebuilding n = false → Runs (exec (.dispatch (some n)) s)))
    ∧ (∀ j : Job, s.job j.id = some j → s.memberTurn j = true → s.superseded j = false → j.dead = none →
      entryFence j.raw = false → (opInfo j.opcode).isSome →
      ∃ t, exec (.chainMemberStart j.id) s = .next t ∧ t.job j.id = some { j with waiting := false }
        ∧ (∀ k ∈ s.jobs, k.id ≠ j.id → k ∈ t.jobs) ∧ t = { s with jobs := t.jobs })
    ∧ (∀ (e : Cached) (rest : List Cached), (s.sq g).slice = e :: rest → (s.sq g).head = .pad → s.mayDispatch g = true →
      ∃ t, exec (.pad g) s = .next t ∧ (t.sq g).slice = rest ∧ t.jobs.map (·.id) = s.jobs.map (·.id)
        ∧ ((s.sq g).bad = none → (t.sq g).consumed = (s.sq g).consumed + BitVec.ofNat 32 (e.bytes.length / 32))
        ∧ t.vault = s.vault ∧ t.rt = s.rt ∧ t.cfg = s.cfg ∧ t.keys = s.keys)

/-- R194, R195, R198: a job of any opcode that works on operands, its entry good and its key ready, goes on: to the derivation
unit for a path; to its fragment lists where it names some; else to its input, every access checked and then issued, in
order; and with no input to read, to a free engine. The use is counted on the slot and an invocation value is drawn; shares of keys
may be masked anew (R113). That a use counts for opcodes outside the symmetric chapter, and that input is fetched before an engine is
sought, is the model's reading (log entries 13 and 24). -/
def Obligations.JobsBegin : Prop :=
  ∀ (s : State) (j : Job), s.NoneWait →
    let Keyed (i : Option Nat) : Prop := match i with
      | none => s.keyCheck j = .none
      | some i => s.keyCheck j = .slot i ∧ ∃ x, s.keys.slot i = some x ∧ s.opPolicy j x = none ∧ j.slotRefused x = false
          ∧ (∀ m, keyNeed j x = some m → m ≤ le j.raw 40 4)
    let Drawn (i : Option Nat) (v : Option Nat) : Prop := ∀ k x, i = some k → s.keys.slot k = some x → j.usesKey = true →
      (x.limit = 0 ∨ x.used < x.limit)
        ∧ (needsSource j.opcode j.alg = true → v.isSome ∧ s.peekValue x = v ∧ ∀ w, v = some w → j.valueSpent x w = false)
    let Goes (o : Host.Outcome State Fault Refusal) (f : State → Job → Prop) : Prop :=
      ∃ t k, o = .next t ∧ t.job j.id = some k ∧ k.raw = j.raw ∧ f t k ∧ (∀ k ∈ s.jobs, k.id ≠ j.id → k ∈ t.jobs)
        ∧ (8 * j.port + flag (s.inst j.inst).isTc ∉ s.flt.fifo → t.flt = s.flt)
        ∧ t = { s with jobs := t.jobs, keys := t.keys, fab := t.fab, cnt := t.cnt, units := t.units, flt := t.flt
                       vault := { s.vault with counters := t.vault.counters }
                       sentry := { s.sentry with maskDraws := t.sentry.maskDraws } }
    let Reads (t : State) (k : Job) (l : List Fetch) : Prop :=
      k.pieces.map (fun p => ((p.part, p.off, ⟨p.addr, p.len, false⟩) : Fetch)) = l.map (fun f => (f.1, f.2.1, { f.2.2 with discard := false }))
        ∧ k.pieces.map (·.id) = List.range' s.fab.nextId l.length
        ∧ t.fab.nextId = s.fab.nextId + l.length
        ∧ ∃ new : List Rd, t.fab.reads = s.fab.reads ++ new
          ∧ new.map (fun r => (r.id, r.addr, r.len)) = k.pieces.map (fun p => (p.id, p.addr, p.len))
          ∧ (∀ r ∈ new, r.inst = j.inst ∧ r.tc = (s.inst j.inst).isTc ∧ r.port = j.port ∧ r.what = .job j.id)
          ∧ (s.pwr.state ≠ .coast → s.fab.readsOut j.port + l.length ≤ 256 → ∀ r ∈ new, r.out = true)
    let Counted (t : State) (i : Option Nat) : Prop := ∀ k x, i = some k → s.keys.slot k = some x →
      ∃ y, t.keys.slot k = some y ∧ y.key = x.key ∧ y.used = x.used + flag j.usesKey
    let Begins (op : Nat) (o : Host.Outcome State Fault Refusal) : Prop := s.Takes j op →
      (s.keyCheck j = .derive → Goes o fun t k => k.phase = .resolving ∧ t.fab = s.fab ∧ t.keys = s.keys)
      ∧ (∀ i, Keyed i → j.listReads false ≠ [] → (∀ f ∈ j.listReads false, s.granted j.inst f.2.2.addr f.2.2.len false = true) →
          Goes o fun t k => k.phase = .lists ∧ k.key = i ∧ Reads t k (j.listReads false))
      ∧ (∀ i v, Keyed i → Drawn i v → j.listReads false = [] → j.group ≠ [] →
          (∀ f ∈ j.group, s.granted j.inst f.2.2.addr f.2.2.len false = true) →
          (∀ e, engineOf op = some e → s.engines e j.class ≠ []) → (j.len ≠ 0 ∨ (op ≠ 0x0110 ∧ op ≠ 0x0111)) →
          Goes o fun t k => k.phase = .data ∧ k.key = i ∧ Reads t k j.group ∧ Counted t i
            ∧ (needsSource j.opcode j.alg = true → i.isSome → k.drawn = v))
      ∧ (∀ i v e x, Keyed i → Drawn i v → j.listReads false = [] → j.group = [] → engineOf op = some e → s.engines e j.class ≠ [] →
          (j.len ≠ 0 ∨ (op ≠ 0x0110 ∧ op ≠ 0x0111)) → s.engineFor j e = some x →
          Goes o fun t k => k.phase = .data ∧ k.key = i ∧ k.engine = some x.val ∧ t.fab = s.fab ∧ Counted t i
            ∧ j.id ∈ t.units.eng[x].contexts ∧ (∀ c ∈ s.units.eng[x].contexts, c ∈ t.units.eng[x].contexts))
    Begins 0x0100 (exec (.aeadEnc j.id) s) ∧ Begins 0x0101 (exec (.aeadDec j.id) s) ∧ Begins 0x0110 (exec (.cipherEnc j.id) s)
    ∧ Begins 0x0111 (exec (.cipherDec j.id) s) ∧ Begins 0x0120 (exec (.macGen j.id) s) ∧ Begins 0x0121 (exec (.macVerify j.id) s)
    ∧ Begins 0x0200 (exec (.hash j.id) s) ∧ Begins 0x0201 (exec (.hashCompare j.id) s) ∧ Begins 0x0202 (exec (.hmacGen j.id) s)
    ∧ Begins 0x0203 (exec (.hmacVerify j.id) s) ∧ Begins 0x0300 (exec (.keyDerive j.id) s) ∧ Begins 0x0301 (exec (.keyUnwrap j.id) s)
    ∧ Begins 0x0305 (exec (.keyAgree j.id) s) ∧ Begins 0x0400 (exec (.pkSign j.id) s) ∧ Begins 0x0401 (exec (.pkVerify j.id) s)
    ∧ Begins 0x0402 (exec (.pkKeygen j.id) s) ∧ Begins 0x0403 (exec (.kemEncaps j.id) s) ∧ Begins 0x0404 (exec (.kemDecaps j.id) s)
    ∧ Begins 0x0405 (exec (.modexp j.id) s) ∧ Begins 0x0406 (exec (.ecPoint j.id) s)
    ∧ Begins 0x0600 (exec (.tls13Open j.id) s) ∧ Begins 0x0601 (exec (.tls13Seal j.id) s) ∧ Begins 0x0602 (exec (.espIn j.id) s)
    ∧ Begins 0x0603 (exec (.espOut j.id) s)

/-- R213, R121, R114, R126, R323: a NOP completes OK with RESULT 0; KEY_WRAP writes its blob and completes OK with its
length; KEY_EVICT waits for the jobs that resolved its slot; KEY_DELIVER_SEALED puts its key on the bus as two shares
when the bus is free and KB_ZEROISE is low; RANDOM writes as many bytes as asked for, whose values nothing states. That a delivery counts
a use, and a wrap and an eviction none, is the model's reading (log entry 13). -/
def Obligations.JobsWithoutEngine : Prop :=
  ∀ (s : State) (j : Job),
    let Slotted (i : Nat) (x : Slot) : Prop := s.keyCheck j = .slot i ∧ s.keys.slot i = some x ∧ s.opPolicy j x = none
      ∧ j.slotRefused x = false
    (s.Takes j 0x0001 → ∃ t, exec (.nop j.id) s = .next t ∧ s.Ended t j .ok 0 ∧ s.KeptAll t ∧ s.NothingStored t)
    ∧ (∀ i x root, s.Takes j 0x0302 → Slotted i x → s.rootKey (byteAt j.raw 44) = some root →
        let svn := if bit (byteAt j.raw 45) 0 then le j.raw 24 4 else s.life.fwSvn
        let b := wrapBlob x root (byteAt j.raw 44) svn (slice j.raw 16 8)
        56 + (x.key.length + 7) / 8 * 8 + 8 ≤ le j.raw 40 4 → s.refused j.inst (outBuf 3 (le j.raw 32 8) b) = none →
        ∃ t, exec (.keyWrap j.id) s = .next t ∧ t.Stored j (outBuf 3 (le j.raw 32 8) b) ∧ s.Ended t j .ok b.length
          ∧ s.KeptAll t)
    ∧ (∀ i x, s.Takes j 0x0303 → Slotted i x → ∃ t k, exec (.keyEvict j.id) s = .next t ∧ t.job j.id = some k
        ∧ k.phase = .evicting ∧ k.key = some i ∧ (∀ k ∈ s.jobs, k.id ≠ j.id → k ∈ t.jobs)
        ∧ t = { s with jobs := t.jobs, keys := t.keys, cnt := t.cnt })
    ∧ (∀ i x, s.Takes j 0x0304 → Slotted i x → (x.limit = 0 ∨ x.used < x.limit) → s.pins.kb = none → s.pins.kbZeroise = false →
        (∀ k ∈ s.jobs, k.phase ≠ .busWait) →
        ∃ t k b, exec (.keyDeliverSealed j.id) s = .next t ∧ t.job j.id = some k ∧ k.phase = .bus ∧ t.pins = { s.pins with kb := some b }
          ∧ b.job = j.id ∧ b.cons = j.opspec % 16 ∧ b.cslot = j.opspec / 256
          ∧ b.attr = BitVec.ofNat 16 (x.key.length + 256 * x.ktype) ∧ xorB b.shareA b.shareB = padTo 32 x.key
          ∧ (∃ y, t.keys.slot i = some y ∧ y.used = x.used + 1)
          ∧ t = { s with jobs := t.jobs, keys := t.keys, cnt := t.cnt, pins := t.pins
                         sentry := { s.sentry with maskDraws := t.sentry.maskDraws } })
    ∧ (∀ i x, s.Takes j 0x0304 → Slotted i x → (x.limit = 0 ∨ x.used < x.limit) → s.pins.kb.isSome ∨ s.pins.kbZeroise = true →
        ∃ t k, exec (.keyDeliverSealed j.id) s = .next t ∧ t.job j.id = some k ∧ k.phase = .busWait ∧ t.pins = s.pins
          ∧ t = { s with jobs := t.jobs, keys := t.keys, cnt := t.cnt })
    ∧ (s.Takes j 0x0500 → s.keyCheck j = .none → s.rng.serves = true → j.listReads false = [] →
        s.refused j.inst (outs 2 j.dstFrags 0 (zeros j.len)) = none →
        ∃ t b, exec (.random j.id) s = .next t ∧ b.length = j.len ∧ t.Stored j (outs 2 j.dstFrags 0 b)
          ∧ s.Ended t j .ok (outBytes (outs 2 j.dstFrags 0 b)) ∧ t.vault = s.vault ∧ t.keys.slots.map (·.1) = s.keys.slots.map (·.1)
          ∧ t.rt = s.rt ∧ t.cfg = s.cfg)

/-- R114, R66, R67: the slot of a KEY_EVICT is emptied and its generation advances once the jobs that resolved it are done; an
acknowledged transfer completes OK, a refused one with KEY_POLICY, one not answered, and one that KB_ZEROISE held back too
long, with ENGINE_FAULT; KB_ZEROISE falls where the block runs. -/
def Obligations.KeyBus : Prop :=
  ∀ s : State,
    (∀ (i : Nat) (x : Slot) (j : Job), s.keys.slot i = some x → x.evicting = some j.id → s.job j.id = some j → j.phase = .evicting →
      s.evictReady i j.id = true → 0 < x.run → s.superseded j = false →
      ∃ t, exec (.keyEvictComplete i) s = .next t ∧ t.keys.slot i = none ∧ t.keys.gen i = nextGen (s.keys.gen i)
        ∧ s.Ended t j .ok 0 ∧ s.KeptAll t)
    ∧ (∀ (b : KbTransfer) (j : Job), s.pins.kb = some b → s.job b.job = some j → j.phase = .bus → s.superseded j = false →
      let Ends (o : Host.Outcome State Fault Refusal) (st : Status) (r : Nat) : Prop :=
        ∃ t, o = .next t ∧ s.Ended t j st r ∧ ((∀ k ∈ s.jobs, k.phase ≠ .busWait) → t.pins = { s.pins with kb := none })
          ∧ t.vault = s.vault ∧ t.rt = s.rt ∧ t.cfg = s.cfg ∧ t.keys.slots.map (·.1) = s.keys.slots.map (·.1)
      Ends (exec .kbAck s) .ok 0 ∧ Ends (exec .kbNack s) .keyPolicy j.keyResult
        ∧ Ends (exec .kbAnswerTimeout s) .engineFault 0)
    ∧ (∀ j : Job, s.job j.id = some j → j.phase = .busWait → s.pins.kbZeroise = true → s.superseded j = false →
      ∃ t, exec (.kbZeroiseWaitTimeout j.id) s = .next t ∧ s.Ended t j .engineFault 0 ∧ s.KeptAll t)
    ∧ (s.alive = true → (s.pins.kb.isSome ∨ ∀ k ∈ s.jobs, k.phase ≠ .busWait) →
      exec .kbZeroiseFall s = .next { s with pins := { s.pins with kbZeroise := false } })

/-- R104, R112, R194, R209, R224: the derivation unit's result of a KEY_DERIVE goes into a slot of the instance, keyed with the leaf
of the path, pinned, and the job completes OK with its handle; another job's goes on with it, and no slot is taken before step
7 of R194; a resolution whose cache was erased ends with KEY_STALE. -/
def Obligations.KeyResolves : Prop :=
  ∀ (s : State) (j : Job), s.job j.id = some j → j.phase = .resolving → s.superseded j = false → s.NoneWait → s.deriveTurn j = true →
    s.unseated j = false →
    let cmd := exec (.keyResolve j.id false) s
    (j.stale = true → ∃ t, cmd = .next t ∧ s.Ended t j .keyStale 0 ∧ s.KeptAll t)
    ∧ (∀ root k s1 at_ s2, j.stale = false → pdRoot j.desc ≠ 0xFF → s.rootKey (pdRoot j.desc) = some root →
        s.derivePath j = some (k, s1) → s1.place j.inst 1 = some (at_, s2) → (∀ p ∈ s.keys.slots, 0 < p.2.run) →
        (j.opcode = 0x0300 → ∃ t y, cmd = .next t ∧ t.keys.slot at_ = some y ∧ y.owner = j.inst
          ∧ y.key = ((pathKeys s j.desc root 0).getLastD []).take (pdKlen j.desc) ∧ y.usage = pdUsage j.desc
          ∧ y.root = some (pdRoot j.desc) ∧ y.pinned = true ∧ s.Ended t j .ok (t.keys.handle at_) ∧ t.rt = s.rt ∧ t.cfg = s.cfg)
        ∧ (j.opcode ≠ 0x0300 → s.transient j = none → s1.keyFails j (s1.unplacedKey j.inst k) = none → j.listReads false ≠ [] →
            j.pieces = [] → (∀ f ∈ j.listReads false, s.granted j.inst f.2.2.addr f.2.2.len false = true) →
          ∃ t i, cmd = .next t ∧ t.job j.id = some i ∧ i.phase = .lists
            ∧ (∃ n, i.pend = some n ∧ n.key = ((pathKeys s j.desc root 0).getLastD []).take (pdKlen j.desc) ∧ n.usage = pdUsage j.desc)
            ∧ i.pieces.map (fun p => (p.part, p.off, p.addr, p.len)) = (j.listReads false).map (fun f => (f.1, f.2.1, f.2.2.addr, f.2.2.len))
            ∧ (∀ k ∈ s.jobs, k.id ≠ j.id → k ∈ t.jobs) ∧ t.keys.slots = s.keys.slots
            ∧ (8 * j.port + flag (s.inst j.inst).isTc ∉ s.flt.fifo → t.flt = s.flt)
            ∧ t = { s with jobs := t.jobs, keys := t.keys, cnt := t.cnt, fab := t.fab, flt := t.flt }))

/-- R242, R243, R250, R254, R278, R282, R302: what the end of a chunk, a digest job and a public-key job does when the
comparison agrees: output written and checked as a whole, verdicts, nothing released of a held record whose tag fails;
and when it fails: a strike on the engine, after the third ENGINE_FAULT. That the tag and the write-back of an IV are checked together with
the last chunk, and that a bad tag writes nothing of that chunk, is the model's reading (log entries 24 and 25). -/
def Obligations.JobsEnd : Prop :=
  ∀ (s : State) (j : Job) (e : Fin 36), s.job j.id = some j → s.onEngine j = some e → s.superseded j = false → s.NoneWait →
    s.units.eng[e].inject = false →
    let Ends (o : Host.Outcome State Fault Refusal) (st : Status) (r : Nat) (l : List Out) : Prop :=
      ∃ t, o = .next t ∧ s.Ended t j st r ∧ t.Stored j l ∧ t.vault = s.vault ∧ t.rt = s.rt ∧ t.cfg = s.cfg ∧ t.eoa = s.eoa
    let chunk (c : Compare) := exec (.chunkComplete j.id c) s
    let dig (c : Compare) := exec (.digestJobEnd j.id c) s
    let pk (c : Compare) := exec (.pkJobEnd j.id c) s
    (engineOf j.opcode = some .ce →
      (j.opcode = 0x0121 → j.lastChunk = true → j.mac = j.tagIn → Ends (chunk .agree) .ok 1 [])
      ∧ (j.opcode = 0x0121 → j.lastChunk = true → j.mac ≠ j.tagIn → Ends (chunk .agree) .authFail 2 [])
      ∧ (j.opcode ≠ 0x0121 → j.opcode ≠ 0x0101 → j.held = false → j.lastChunk = true →
          s.refused j.inst (j.chunkOuts ++ j.tailOuts) = none →
          Ends (chunk .agree) .ok (j.okResult (j.released + outBytes j.chunkOuts)) (j.chunkOuts ++ j.tailOuts))
      ∧ (∀ o, j.opcode ≠ 0x0121 → j.held = false → j.lastChunk = true → s.refused j.inst (j.chunkOuts ++ j.tailOuts) = some o →
          Ends (chunk .agree) .regionViolation (location o.1 o.2.1) []
          ∧ ∃ t, chunk .agree = .next t ∧ s.NothingStored t)
      ∧ (j.held = true → j.lastChunk = true → j.opened = none →
          Ends (chunk .agree) .authFail 0 [] ∧ ∃ t, chunk .agree = .next t ∧ s.NothingStored t)
      ∧ (∀ b, j.held = true → j.lastChunk = true → j.opened = some b → b.length ≤ j.capacity →
          s.refused j.inst (outs 3 j.dstFrags 0 b) = none →
          Ends (chunk .agree) .ok (if j.layout = .proto then b.length else outBytes (outs 3 j.dstFrags 0 b)) (outs 3 j.dstFrags 0 b))
      ∧ (j.held = false → j.lastChunk = false → s.refused j.inst j.chunkOuts = none →
          ∃ t, chunk .agree = .next t ∧ t.Stored j j.chunkOuts
            ∧ ∀ k, t.job j.id = some k → k.offset = j.chunkEnd ∧ k.released = j.released + outBytes j.chunkOuts))
    ∧ (engineOf j.opcode = some .de →
      (j.compares = true → j.formed = j.expect → Ends (dig .agree) .ok 1 [])
      ∧ (j.compares = true → j.formed ≠ j.expect → Ends (dig .agree) .authFail 2 [])
      ∧ (j.compares = false → s.refused j.inst (outs 3 j.dstFrags 0 j.formed) = none →
          Ends (dig .agree) .ok j.outLen (outs 3 j.dstFrags 0 j.formed)))
    ∧ (engineOf j.opcode = some .lf →
      (pkDraws j.opcode = false → ((runPublic j.work).status ≠ .ok ∨ (runPublic j.work).out = []) →
          Ends (pk .agree) (runPublic j.work).status (runPublic j.work).result [])
      ∧ (pkDraws j.opcode = false → (runPublic j.work).status = .ok → (runPublic j.work).out ≠ [] →
          s.refused j.inst (outBuf 5 (le j.raw 64 8) (runPublic j.work).out) = none →
          Ends (pk .agree) .ok (runPublic j.work).result (outBuf 5 (le j.raw 64 8) (runPublic j.work).out))
      ∧ (pkDraws j.opcode = true → s.rng.serves = false → Ends (pk .agree) .entropyFail 0 [])
      ∧ (j.opcode = 0x0305 → s.rng.serves = true → agree j.alg j.slotKey j.src (s.drawBlind j).1 = none →
          Ends (pk .agree) .pkInvalidInput (location 2 0) []))
    ∧ (let Strikes (o : Host.Outcome State Fault Refusal) : Prop :=
        ∃ t, o = .next t ∧ t.units.eng[e].strikes = s.units.eng[e].strikes + 1
          ∧ (2 ≤ j.failedOn.length → s.Ended t j .engineFault 0) ∧ t.vault = s.vault ∧ t.rt = s.rt
      (engineOf j.opcode = some .ce → Strikes (chunk .differ)) ∧ (engineOf j.opcode = some .de → Strikes (dig .differ))
      ∧ (engineOf j.opcode = some .lf → (pkDraws j.opcode = true → s.rng.serves = true) → Strikes (pk .differ)))

/-! ## Responses, units that fail, the edge unit -/

/-- R59, R151, R235, R312, R340, R491, R493: a read's data joins its operand, or an error code ends the job with FETCH_ERROR; a
log line is written back with its page's bit; a write's response lets what waited for it go on, an error one fails the
instance with WRITE_ERROR, and that of a log line sets LOG_OVERFLOW too; a response to an abandoned access reaches no state (log
entry 5 for one never issued or still waiting for a place of its port; no injected FIFO error waits). The place of an answered access goes
to the next one that waits (R59). -/
def Obligations.FabricResponses : Prop :=
  ∀ (s : State) (id : Nat), s.NoneWait → s.flt.fifo = [] →
    (∀ (beats : List Beat) (r : Rd), s.fab.reads.find? (·.id == id) = some r → r.out = true → r.poison = false →
      answers beats r.len = true →
      (∀ (j : Job) (p : Piece), r.what = .job j.id → s.job j.id = some j → j.pieces.find? (·.id == id) = some p →
        (worst beats = .ok → (∃ q ∈ j.pieces, q.id ≠ id ∧ q.data = none) →
          ∃ t, exec (.fabricReadResponse id beats) s = .next t
            ∧ t.job j.id = some { j with pieces := j.pieces.map fun q =>
                if q.id = id then { q with data := some ((beatData beats).take r.len), bad := firstBad beats } else q }
            ∧ (∀ k ∈ s.jobs, k.id ≠ j.id → k ∈ t.jobs) ∧ t.fab = (s.readDone r).fab
            ∧ t = { s with jobs := t.jobs, fab := t.fab, cnt := t.cnt })
        ∧ (worst beats = .decode ∨ worst beats = .targetErr → s.superseded j = false →
          ∃ t, exec (.fabricReadResponse id beats) s = .next t ∧ s.Ended t j .fetchError (location p.part.code p.off)
            ∧ s.KeptAll t))
      ∧ (∀ (n : Fin 128) (o : LogOp), r.what = .log n → (s.inst n).logOp = some o → worst beats = .ok →
          ∃ t, exec (.fabricReadResponse id beats) s = .next t
            ∧ (t.inst n).logOp = some { o with id := s.fab.nextId, writing := true }
            ∧ (∃ w ∈ t.fab.writes, w.id = s.fab.nextId ∧ w.addr = o.line ∧ w.what = .log n
                ∧ w.data = setLogBit (padTo 64 (beatData beats)) o.bit.page)
            ∧ s.OtherInsts t n ∧ t = { s with insts := t.insts, fab := t.fab, cnt := t.cnt }))
    ∧ (∀ beats r, s.fab.reads.find? (·.id == id) = some r → r.out = false →
        exec (.fabricReadResponse id beats) s = .fault .neverIssued)
    ∧ (∀ beats, s.fab.reads.find? (·.id == id) = none →
        exec (.fabricReadResponse id beats) s = if s.fab.nextId ≤ id then .fault .neverIssued else .next s)
    ∧ (∀ r, s.fab.writes.find? (·.id == id) = none →
        exec (.fabricWriteResponse id r) s = if s.fab.nextId ≤ id then .fault .neverIssued else .next s)
    ∧ (∀ w : Wr, s.fab.writes.find? (·.id == id) = some w → w.out = false → ∀ r,
        exec (.fabricWriteResponse id r) s = .fault .neverIssued)
    ∧ (∀ w : Wr, s.fab.writes.find? (·.id == id) = some w → w.out = true → w.poison = false →
      let rest := (s.writeDone w).fab
      (∀ q, w.what = .completion q → w.logged = false → ∃ t, exec (.fabricWriteResponse id .ok) s = .next t ∧ t.fab = rest
        ∧ t.cq q = { s.cq q with acks := (s.cq q).acks.filter (· != id) } ∧ (∀ p, p ≠ q → t.cq p = s.cq p)
        ∧ t = { s with fab := t.fab, cqs := t.cqs, cnt := t.cnt })
      ∧ (∀ g, w.what = .writeBack g → w.logged = false → (s.sq g).wbFlight = some id → (s.sq g).wbDue = false →
        ∃ t, exec (.fabricWriteResponse id .ok) s = .next t ∧ t.fab = rest ∧ t.sq g = { s.sq g with wbFlight := none }
          ∧ (∀ h, h ≠ g → t.sq h = s.sq h) ∧ t = { s with fab := t.fab, sqs := t.sqs, cnt := t.cnt })
      ∧ (∀ n, w.what = .log n → w.logged = false → (s.inst n).logQ = [] →
        ∃ t, exec (.fabricWriteResponse id .ok) s = .next t ∧ t.fab = rest ∧ t.inst n = { s.inst n with logOp := none }
          ∧ s.OtherInsts t n ∧ t = { s with fab := t.fab, insts := t.insts, cnt := t.cnt })
      ∧ (∀ (j : Job) (g : Fin 512) (st : Status) (r : Nat), w.what = .data j.id g → w.logged = false → s.job j.id = some j →
          j.phase = .draining → j.ending = some (st, r) → st ≠ .aborted → s.superseded j = false →
          (∀ x ∈ s.fab.writes, x.id ≠ id → ∀ h, x.what ≠ .data j.id h) →
          ∃ t, exec (.fabricWriteResponse id .ok) s = .next t ∧ s.Completed t j st r ∧ s.KeptAll t)
      ∧ (∀ (j : Job) (g : Fin 512), w.what = .data j.id g → w.logged = false → s.job j.id = some j → j.phase = .keygen →
          s.superseded j = false → (∀ x ∈ s.fab.writes, x.id ≠ id → ∀ h, x.what ≠ .data j.id h) →
          (∀ p ∈ s.keys.slots, p.1 ≠ j.runAt) →
          ∃ t y, exec (.fabricWriteResponse id .ok) s = .next t ∧ t.keys.slot j.runAt = some y ∧ y.owner = j.inst ∧ y.pinned = true
            ∧ y.key = j.pub ∧ y.usage = keygenUsage j.alg ∧ s.Ended t j .ok (t.keys.handle j.runAt) ∧ t.rt = s.rt ∧ t.cfg = s.cfg)
      ∧ (∀ r q, r ≠ .ok → w.what = .completion q → w.logged = false → (s.inst w.inst).state = .active →
          ∃ t, exec (.fabricWriteResponse id r) s = .next t ∧ (t.inst w.inst).state = .failed ∧ (t.inst w.inst).noticeCode = 1
            ∧ (t.inst w.inst).noticeAddr = w.addr ∧ t.flt.causes.getLsbD 13 = true ∧ t.vault = s.vault ∧ t.rt = s.rt)
      ∧ (∀ r n, r ≠ .ok → w.what = .log n → w.inst = n → w.logged = false → (s.inst n).state = .active → (s.inst n).logQ = [] →
          ∃ t, exec (.fabricWriteResponse id r) s = .next t ∧ (t.inst n).logOverflow = true ∧ (t.inst n).state = .failed
            ∧ (t.inst n).noticeCode = 1 ∧ (t.inst n).noticeAddr = w.addr ∧ (t.inst n).logOp = none ∧ t.vault = s.vault ∧ t.rt = s.rt))

/-- R18, R22, R226, R237, R255, R256, R323, R325, R456: a unit's second strike quarantines it; a fence takes its cluster out, and
the second erases the keys; the tandem of the region meets either (which region that is, is log entry 45); a rebuild is done; three engines failing within 10 ms erase the keys; engines turn to their
next job, a digest job's checkpoint saved where its copies agree and a strike where they differ; the generator reseeds, is
instantiated anew once its datapaths disagree and stops the second time, loses a source, and stops with both. -/
def Obligations.UnitsFail : Prop :=
  ∀ s : State,
    (∀ (k : EngineKind) (e : Fin 16) (x : Fin 36), engNo k e.val = some x →
      (s.alive = true → 2 ≤ s.units.eng[x].strikes → s.units.eng[x].quar = false → ∃ t, exec (.engineQuarantined k e) s = .next t
        ∧ t.units.eng[x].quar = true ∧ (∀ o, t.serves x o = false) ∧ t.flt.causes.getLsbD 6 = true ∧ t.vault = s.vault
        ∧ (∃ n, (n, Sample.interrupt) ∈ t.flt.tandems[s.flt.server (if engCluster x / 2 = 1 then 1 else 0)].log)
        ∧ t.rt = s.rt ∧ t.cfg = s.cfg ∧ t.pins.kbZeroise = s.pins.kbZeroise)
      ∧ (s.units.eng[x].strikes < 2 → exec (.engineQuarantined k e) s = .next s)
      ∧ (∀ i, s.NoneWait → (k = .ce ∨ k = .de) → s.turnOf x = some i → (∀ j, s.job i = some j → s.superseded j = false) →
          (s.units.eng[x].inject = false → i ∈ s.units.eng[x].contexts → 2 ≤ s.occupied x →
            ∃ t, exec (.quantumBoundary k e .agree) s = .next t
              ∧ t.units.eng[x].contexts = turnPast i s.units.eng[x].contexts ∧ (∀ j ∈ s.jobs, j.id ≠ i → j ∈ t.jobs)
              ∧ (∀ j, s.job i = some j → engineOf j.opcode = some .de → j.ready = true → t.job i
                  = some { j with offset := min j.len (nextQuantum j.alg j.offset), failedOn := [] })
              ∧ (s.keys.slots = [] → t.keys = s.keys ∧ t.sentry = s.sentry) ∧ t.keys.slots.map (·.1) = s.keys.slots.map (·.1)
              ∧ t = { s with units := t.units, jobs := t.jobs, cnt := t.cnt, keys := t.keys, sentry := t.sentry })
          ∧ (∀ j, s.job i = some j → engineOf j.opcode = some .de → j.ready = true → ∃ t, exec (.quantumBoundary k e .differ) s = .next t
              ∧ t.units.eng[x].strikes = s.units.eng[x].strikes + 1 ∧ t.vault = s.vault ∧ t.rt = s.rt)))
    ∧ (∀ (c : Fin 4) (cause : Fin 3), s.alive = true → s.units.fenced[c] = false → (cause ≠ 1 ∨ 3 ≤ s.quarantined c) →
        ∃ t, exec (.clusterFenced c cause) s = .next t ∧ t.units.fenced[c] = true ∧ t.flt.causes.getLsbD 7 = true
          ∧ (∀ e : Fin 36, engCluster e = c.val → ∀ o, t.serves e o = false)
          ∧ (∃ n, (n, Sample.interrupt) ∈ t.flt.tandems[s.flt.server (if c.val / 2 = 1 then 1 else 0)].log)
          ∧ (s.units.fences = 1 → t.keys.slots = [] ∧ t.edge.table = [] ∧ t.pins.kbZeroise = true ∧ t.flt.causes.getLsbD 4 = true)
          ∧ t.vault = s.vault ∧ t.rt = s.rt ∧ t.cfg = s.cfg)
    ∧ (s.alive = true → s.units.rebuild = true → ∃ t, exec .tcRebuild s = .next t ∧ t.units.rebuild = false ∧ t.units.fenced = s.units.fenced
        ∧ t.vault = s.vault ∧ t.rt = s.rt ∧ t.cfg = s.cfg ∧ t.keys.slots.map (·.1) = s.keys.slots.map (·.1))
    ∧ (s.alive = true → s.units.alarmDue = true → ∃ t, exec .mismatchAlarm s = .next t ∧ t.units.misses = [] ∧ t.keys.slots = []
        ∧ t.edge.table = [] ∧ t.pins.kbZeroise = true ∧ t.flt.causes.getLsbD 4 = true ∧ t.vault = s.vault ∧ t.rt = s.rt
        ∧ (∀ k : Fin 8, t.eoa.sessions[k] = none))
    ∧ (s.units.alarmDue = false → exec .mismatchAlarm s = .next s)
    ∧ (s.rng.serves = true → ∃ t, exec .reseed s = .next t
        ∧ t.rng = { s.rng with requests := 0, key := t.rng.key, v := t.rng.v } ∧ t = { s with rng := t.rng, cnt := t.cnt, free := t.free })
    ∧ (s.tandemsRun = true → s.rng.serves = true → ∃ t, exec (.entropySource .datapaths) s = .next t
        ∧ t.rng.disagreed = s.rng.disagreed + 1 ∧ t.rng.src = s.rng.src
        ∧ (s.rng.disagreed = 0 → t.rng.serves = true ∧ t.rng.requests = 0 ∧ t = { s with rng := t.rng, free := t.free })
        ∧ (s.rng.disagreed = 1 → t.rng.serves = false ∧ t.rng.tcReserve = 0 ∧ t.rng.key = zeros 32 ∧ t.rng.v = zeros 16
            ∧ t.flt.causes.getLsbD 11 = true ∧ t = { s with rng := t.rng, flt := t.flt, jnl := t.jnl }))
    ∧ (∀ k : Fin 2, s.tandemsRun = true → s.rng.src[k] = true → ∃ t, exec (.entropySource (.source k)) s = .next t ∧ t.rng.src[k] = false
        ∧ t.flt.causes.getLsbD 10 = true ∧ (∀ l, l ≠ k → t.rng.src[l] = s.rng.src[l])
        ∧ ((∀ l, l ≠ k → s.rng.src[l] = false) → t.rng.serves = false ∧ t.rng.tcReserve = 0 ∧ t.flt.causes.getLsbD 11 = true)
        ∧ ((∃ l, l ≠ k ∧ s.rng.src[l] = true) → s.rng.disagreed < 2 → t.rng.serves = s.rng.serves ∧ t.rng.tcReserve = s.rng.tcReserve)
        ∧ t = { s with rng := t.rng, cnt := t.cnt, flt := t.flt, jnl := t.jnl })

/-- R268 to R271, R273, R275, R277: a frame of the right direction goes to a free lane with the entry it starts under, or is
answered FORMAT or NO_ENTRY at once; a verdict is taken whole, a frame of channel 96 beat by beat of 32 bytes; a lane's end gives the verdict of freshness and MAC, advances the entry on
acceptance alone, and frees the lane; poison in the entry empties it and gives NO_ENTRY; a disagreement is a strike, and the second LANE_FAULT. R63: a frame on a reserved
channel is dropped and counted where OFL_RX_READY is high, and is not taken where it is low. The order of the beats on OFL_TX, and a
verdict without a lane, are the model's reading (log entries 21 and 27). -/
def Obligations.EdgeFrames : Prop :=
  ∀ (s : State) (f : OflFrame),
    let cmd := if f.generate then exec (.edgeGenerate f) s else exec (.edgeVerify f) s
    let Free := s.oflAvail = true ∧ s.edge.queue = [] ∧ (∀ l : Fin 8, s.edge.lanes[l] = none) ∧ f.chan.val < 96
      ∧ s.flt.fifo = []
    let Says (o : Host.Outcome State Fault Refusal) (code fv : Nat) (mac : Bytes) : Prop :=
      ∃ t, o = .next t ∧ t.edge = { s.edge with verdicts := s.edge.verdicts ++ [(f.chan.val, verdictBeat f code fv mac)] }
        ∧ t = { s with edge := t.edge, cnt := t.cnt }
    (Free → f.badFormat = true → Says cmd 0x05 0 [])
    ∧ (Free → f.badFormat = false → s.edgeEntry f = none → Says cmd 0x04 0 [])
    ∧ (∀ x l, Free → f.badFormat = false → s.edgeEntry f = some x → s.freeLane ⟨f, none, 0, [], false⟩ = some l →
        ∃ t, cmd = .next t ∧ t.edge = { s.edge with lanes := s.edge.lanes.set l (some ⟨f, some x, 0, [], false⟩) }
          ∧ t = { s with edge := t.edge, cnt := t.cnt })
    ∧ (if f.generate then exec (.edgeVerify f) s = .next s else exec (.edgeGenerate f) s = .next s)
    ∧ (97 ≤ f.chan.val → s.oflRxReady = true → exec (.reservedChannelFrame f) s = .next (s.count 0x201C 1))
    ∧ (s.oflRxReady = false → exec (.reservedChannelFrame f) s = .next s ∧ cmd = .next s)
    ∧ (s.oflAvail = false → exec .oflTxReady s = .next s)
    ∧ (s.oflAvail = true → s.eoa.taken = 0 → s.edge.verdicts ≠ [] →
        exec .oflTxReady s = .next { s with edge := { s.edge with verdicts := s.edge.verdicts.drop 1 } })
    ∧ (∀ b rest, s.oflAvail = true → s.eoa.taken ≠ 0 ∨ s.edge.verdicts = [] → s.eoa.out = b :: rest →
        (b.length ≤ s.eoa.taken + 32 → exec .oflTxReady s = .next { s with eoa := { s.eoa with out := rest, taken := 0 } })
        ∧ (s.eoa.taken + 32 < b.length → exec .oflTxReady s = .next { s with eoa := { s.eoa with taken := s.eoa.taken + 32 } }))
    ∧ (∀ (l : Fin 8) (j : EdgeJob) (k : Nat) (x : EdgeEntry), s.edge.lanes[l] = some j → j.entry = some (k, x) →
        j.frame = f → s.units.eng[laneEng l].inject = false → s.flt.fifo = [] →
        let y := s.entryNow k x
        let c := y.candidate f.fv
        let Ends (code fv : Nat) (mac : Bytes) (z : EdgeEntry) : Prop := s.edge.queue = [] →
          ∃ t, exec (.edgeLaneDone l .agree) s = .next t ∧ t.edge.lanes = s.edge.lanes.set l none ∧ t.edge.queue = []
            ∧ t.edge.verdicts = s.edge.verdicts ++ [(f.chan.val, verdictBeat f code fv mac)]
            ∧ t.edge.table = s.edge.table.map (fun p => if p.1 = k ∧ p.2.load = y.load then (k, z) else p)
            ∧ t = { s with edge := t.edge }
        (y.fresh c = false → Ends (if y.generates then 0x07 else 0x03) (if y.generates then 0 else c) []
          { y with freshFails := (y.freshFails + 1) % 2 ^ 32 })
        ∧ (y.fresh c = true → y.generates = false → y.mac f c ≠ slice f.desc 16 (y.macBits / 8) →
          Ends 0x02 c [] { y with macFails := (y.macFails + 1) % 2 ^ 32 })
        ∧ (y.fresh c = true → y.generates = false → y.mac f c = slice f.desc 16 (y.macBits / 8) →
          Ends 0x01 c [] { y with fvLast := c, accepts := (y.accepts + 1) % 2 ^ 32 })
        ∧ (y.fresh c = true → y.generates = true →
          Ends 0x01 c (y.mac f c) { y with fvLast := c, accepts := (y.accepts + 1) % 2 ^ 32 })
        ∧ (s.edge.queue = [] → ∃ t, exec (.edgeLaneDone l .entry) s = .next t ∧ t.edge = { s.edge with
              lanes := s.edge.lanes.set l none
              table := s.edge.table.filter fun p => !(p.1 == k && p.2.load == x.load)
              verdicts := s.edge.verdicts ++ [(f.chan.val, verdictBeat f 0x04 0 [])] } ∧ t = { s with edge := t.edge, cnt := t.cnt })
        ∧ (∃ t, exec (.edgeLaneDone l .differ) s = .next t ∧ t.units.eng[laneEng l].strikes = s.units.eng[laneEng l].strikes + 1
            ∧ (1 ≤ j.runs → s.edge.queue = [] → t.edge = { s.edge with
                lanes := s.edge.lanes.set l none
                verdicts := s.edge.verdicts ++ [(f.chan.val, verdictBeat f 0x06 0 [])] })
            ∧ t.edge.table = s.edge.table ∧ t.vault = s.vault ∧ t.rt = s.rt ∧ t.cfg = s.cfg))

/-! ## The object dictionary: in each clause the service is idle, and w may write (or read) the object -/

/-- R342, R345, R346: READ answers the object's value, WRITE its effect or a commit, and each check its status. A commit starts its group, or
is refused, once the journal is free of a group of the block's own (log entry 29). -/
def Obligations.ReadsAndWrites : Prop :=
  ∀ (s : State) (w : Who) (i sub : Nat), s.Idle w →
    (∀ st b, Obj.resolve i sub = .error st →
      let Same (c : Host.Outcome State Fault Refusal) : Prop := s.Answers w c st fun t =>
        t = { s with pins := t.pins, pwr := t.pwr, cnt := t.cnt, dict := t.dict, flt := (s.flt.withLogs t.flt) } ∧ t.dict.transfers = s.dict.transfers
      Same (exec (.read w i sub) s) ∧ Same (exec (.write w i sub b) s))
    ∧ (∀ o, Obj.resolve i sub = .ok o →
      (s.readDenied w o = none → o.isDomain = false → (s.valueOf o).length ≤ roomOf w →
        s.Answers w (exec (.read w i sub) s) .ok fun t => t.dict.readout = s.valueOf o
          ∧ (∀ m, t.dict.box w = some m → m.rlen = (s.valueOf o).length ∧ m.buffer.take m.rlen = s.valueOf o)
          ∧ t = { s with pins := t.pins, pwr := t.pwr, cnt := t.cnt, dict := t.dict, flt := (s.flt.withLogs t.flt) })
      ∧ (∀ st, s.readDenied w o = some st → s.Answers w (exec (.read w i sub) s) st fun t =>
          t = { s with pins := t.pins, pwr := t.pwr, cnt := t.cnt, dict := t.dict, flt := (s.flt.withLogs t.flt) } ∧ t.dict.readout = [])
      ∧ (∀ st b, s.writeDenied w o = some st → b.length ≤ roomOf w → s.Answers w (exec (.write w i sub b) s) st fun t =>
          t = { s with pins := t.pins, pwr := t.pwr, cnt := t.cnt, dict := t.dict, flt := (s.flt.withLogs t.flt) })
      ∧ (∀ n f b, o = .instDesc n f → n ≠ 0 → s.writeDenied w o = none → o.lengthOk b.length = true → b.length ≤ roomOf w →
          (descOk f b = true → s.Answers w (exec (.write w i sub b) s) .ok fun t =>
            t.inst n = { s.inst n with staged := (s.inst n).staged.setField f b } ∧ s.OtherInsts t n
              ∧ t = { s with pins := t.pins, pwr := t.pwr, cnt := t.cnt, dict := t.dict, flt := (s.flt.withLogs t.flt), insts := t.insts })
          ∧ (descOk f b = false → s.Answers w (exec (.write w i sub b) s) .range fun t =>
              t = { s with pins := t.pins, pwr := t.pwr, cnt := t.cnt, dict := t.dict, flt := (s.flt.withLogs t.flt) }))
      ∧ (∀ b, o ∈ [Obj.coastAfter, .freewheelAfter, .backoffTime, .restartWindow, .tandemRestarts, .idleLimit, .jnlDayLimit,
            .crcRetries, .pelConfig, .sessionsMax] → s.writeDenied w o = none → o.lengthOk b.length = true →
          (s.persistRange o b = true → s.mayCommit (commitRecs [(o, b)] none) = true →
            ∃ t, exec (.write w i sub b) s = .next t ∧ s.AskedCards t ∧ s.Committing t w [(o, b)] none ∧ t.cfg = s.cfg
              ∧ t = { s with pins := t.pins, pwr := t.pwr, cnt := t.cnt, dict := t.dict, flt := (s.flt.withLogs t.flt), jnl := t.jnl })
          ∧ (s.persistRange o b = true → s.mayCommit (commitRecs [(o, b)] none) = false → s.jnl.inFlight = none → s.jnl.s0Waits = false →
            s.Answers w (exec (.write w i sub b) s) .persistFail fun t => t.cfg = s.cfg ∧ t.vault = s.vault)))

/-- R351, R352: a transfer opens at FIRST, takes segments in order, and ends at LAST, when it is out of order, when it is
aborted, and after 10 s without one; a read serves a snapshot of the value. -/
def Obligations.Transfers : Prop :=
  ∀ (s : State) (w : Who) (i sub : Nat) (o : Obj), s.Idle w → Obj.resolve i sub = .ok o →
    let Framed (t : State) : Prop := t = { s with pins := t.pins, pwr := t.pwr, cnt := t.cnt, dict := t.dict, flt := (s.flt.withLogs t.flt), jnl := t.jnl }
      ∧ t.jnl = { s.jnl with updOpen := t.jnl.updOpen } ∧ ∀ x ∈ s.dict.transfers, x.who ≠ w → x ∈ t.dict.transfers
    let Gone (t : State) : Prop := Framed t ∧ t.transfer w = none ∧ ∀ u, t.jnl.updOpen = some u → u.1 ≠ w
    (∀ total data, s.writeDenied w o = none → o.isDomain = true → o ≠ .updSegment → data.length ≤ roomOf w →
        s.openRefused w o total = none → data.length ≤ total →
        s.Answers w (exec (.segWrite w i sub true false total data) s) .ok fun t => Framed t
          ∧ t.transfer w = some ⟨w, o, true, total, data, 0⟩)
    ∧ (∀ x arg data, s.writeDenied w o = none → o.isDomain = true → o ≠ .updSegment → data.length ≤ roomOf w →
        s.transfer w = some x → x.write = true → x.obj = o → atOffset w arg x.data.length = true →
        x.data.length + data.length ≤ x.total →
        s.Answers w (exec (.segWrite w i sub false false arg data) s) .ok fun t => Framed t
          ∧ t.transfer w = some { x with data := x.data ++ data })
    ∧ (∀ last arg data, s.writeDenied w o = none → o.isDomain = true → o ≠ .updSegment → data.length ≤ roomOf w →
        s.transfer w = none → s.Answers w (exec (.segWrite w i sub false last arg data) s) .segSequence Gone)
    ∧ (∀ arg, s.readDenied w o = none → o.isDomain = true → atOffset w arg 0 = true →
        s.Answers w (exec (.segRead w i sub true arg) s) .ok fun t => Framed t
          ∧ t.dict.readout = (s.valueOf o).take (roomOf w)
          ∧ t.transfer w = (if roomOf w < (s.valueOf o).length then some ⟨w, o, false, (s.valueOf o).length, s.valueOf o, roomOf w⟩
              else none))
    ∧ s.Answers w (exec (.segAbort w) s) .ok Gone
    ∧ (∃ t, exec (.transferIdle w) s = .next t ∧ t.transfer w = none ∧ (∀ x ∈ s.dict.transfers, x.who ≠ w → x ∈ t.dict.transfers)
        ∧ t = { s with dict := { s.dict with transfers := t.dict.transfers, mgrBox := t.dict.mgrBox, boxes := t.dict.boxes }
                       jnl := { s.jnl with updOpen := t.jnl.updOpen }, flt := (s.flt.withLogs t.flt) })

/-- R131, R133, R143, R144, R147: an instance is made whole from its staged values, activated, quiesced, reset with its hand
advanced, destroyed and reshared; what is not allowed answers STATE_CONFLICT and changes nothing of it. -/
def Obligations.InstanceLife : Prop :=
  ∀ (s : State) (w : Who) (n : Fin 128),
    let i := s.inst n
    let Only (t : State) (j : Inst) : Prop := t.inst n = j ∧ s.OtherInsts t n
      ∧ t = { s with pins := t.pins, pwr := t.pwr, cnt := t.cnt, dict := t.dict, flt := (s.flt.withLogs t.flt), insts := t.insts }
    let Resets (c : Host.Outcome State Fault Refusal) (d : Bool) : Prop := ∃ t, c = .next t ∧ t.Told w .ok ∧ (t.inst n).state = .resetting
      ∧ (t.inst n).hand = nextHand i.hand ∧ (t.inst n).destroying = d ∧ (∀ g ∈ s.sqsOf n, (t.sq g).slice = [])
      ∧ (∀ j ∈ t.jobs, j.inst = n → j.started = true) ∧ s.OtherInsts t n ∧ t.vault = s.vault ∧ t.rt = s.rt ∧ t.cfg = s.cfg
    (s.Idle w → s.writeDenied w (.instCommand n) = none →
      (∀ sb cb u, i.state = .free → i.staged.rangesOk = true → s.sqRun i.staged.sqCount = some sb →
          s.cqRun i.staged.cqCount = some cb → assignAll n i.staged.tcReserve s.units = some u → s.shortFor n i.staged = 0 →
          s.Answers w (exec (.create w n) s) .ok fun t =>
            t.inst n = { i with live := i.staged, state := .configured, quiesced := false, credits := i.staged.credits
                                drawn := i.staged.credits, outstanding := 0, sqBase := some sb, cqBase := some cb
                                vtime := 0, wasEligible := false, rr := 0 }
            ∧ s.OtherInsts t n ∧ t.units = { u with short := 0 }
            ∧ (∀ g : Fin 512, t.sq g = if sb ≤ g.val ∧ g.val < sb + i.staged.sqCount then { Sq.reset with owner := some n } else s.sq g)
            ∧ (∀ q : Fin 256, t.cq q = if cb ≤ q.val ∧ q.val < cb + i.staged.cqCount then { Cq.reset with owner := some n } else s.cq q)
            ∧ t = { s with pins := t.pins, pwr := t.pwr, cnt := t.cnt, dict := t.dict, flt := (s.flt.withLogs t.flt), insts := t.insts, sqs := t.sqs
                           cqs := t.cqs, units := t.units })
      ∧ (i.state ≠ .free → s.Answers w (exec (.create w n) s) .stateConflict fun t => Only t i)
      ∧ (i.state = .configured ∨ i.state = .active →
          s.Answers w (exec (.activate w n) s) .ok fun t => Only t { i with state := .active, quiesced := false })
      ∧ (i.state = .active → s.Answers w (exec (.quiesce w n) s) .ok fun t => Only t { i with state := .quiescing })
      ∧ (i.state = .configured → s.Answers w (exec (.quiesce w n) s) .ok fun t => Only t { i with quiesced := true })
      ∧ (i.state ≠ .free → i.state ≠ .resetting → i.destroying = false → Resets (exec (.reset w n) s) false)
      ∧ (i.state = .free → s.Answers w (exec (.reset w n) s) .stateConflict fun t => Only t i)
      ∧ (n ≠ 0 → i.state = .configured → s.Answers w (exec (.destroy w n) s) .ok fun t => (t.inst n).state = .free
          ∧ (t.inst n).hand = nextHand i.hand ∧ (∀ p ∈ t.keys.slots, p.2.owner ≠ n) ∧ (∀ g, (t.sq g).owner ≠ some n)
          ∧ (∀ q, (t.cq q).owner ≠ some n) ∧ t.vault = s.vault ∧ t.rt = s.rt)
      ∧ (n ≠ 0 → i.state = .failed → Resets (exec (.destroy w n) s) true)
      ∧ (n = 0 → s.Answers w (exec (.destroy w n) s) .stateConflict fun t => Only t i)
      ∧ (i.state = .configured ∨ i.state = .active ∨ i.state = .quiescing → i.staged.rangesOk = true →
          s.shareConflict n i.live i.staged = false → s.shortForShare n i.live i.staged = 0 →
          ∀ u, (if i.state = .configured then assignAll n i.staged.tcReserve (s.units.release n) else some s.units) = some u →
          s.Answers w (exec (.reshare w n) s) .ok fun t => (t.inst n).live = i.staged ∧ (t.inst n).credits = i.staged.credits
            ∧ t.units = { u with short := 0 } ∧ (t.inst n).state = i.state ∧ (t.inst n).hand = i.hand ∧ t.vault = s.vault ∧ t.rt = s.rt)
      ∧ (i.state = .free → s.Answers w (exec (.reshare w n) s) .stateConflict fun t => Only t i))
    ∧ (s.Idle w → s.writeDenied w (.selfReset n) = none → i.state ≠ .free → i.state ≠ .resetting → i.destroying = false →
        Resets (exec (.selfReset w n) s) false)
    ∧ (i.state = .quiescing → i.outstanding = 0 → s.writesOut n = false → i.logIdle = true → ∃ t, exec (.quiesceComplete n) s = .next t
        ∧ t.inst n = { i with state := .configured, quiesced := true } ∧ s.OtherInsts t n ∧ t = { s with insts := t.insts })
    ∧ (i.state = .resetting → ∃ t, exec (.engineStopTimeout n) s = .next t ∧ (∀ j ∈ t.jobs, j.inst ≠ n) ∧ s.KeptAll t
        ∧ s.OtherInsts t n)
    ∧ (i.state = .resetting → s.writesOut n = false → i.logIdle = true → (∀ j ∈ s.jobs, j.inst ≠ n) →
        ∃ t, exec (.resetComplete n) s = .next t ∧ (t.inst n).state = (if i.destroying then .free else .configured)
          ∧ (t.inst n).hand = i.hand ∧ (∀ p ∈ t.keys.slots, p.2.owner ≠ n) ∧ (∀ p ∈ t.edge.table, p.2.owner ≠ n)
          ∧ (∀ g ∈ s.sqsOf n, (t.sq g).state = .disabled) ∧ (∀ q ∈ s.cqsOf n, (t.cq q).enabled = false)
          ∧ t.vault = s.vault ∧ t.rt = s.rt)

/-- R185 to R187, R190, R191: a ring is enabled at its counter, shut down, and its CQ enabled and disabled, under their
conditions. -/
def Obligations.RingRequests : Prop :=
  ∀ (s : State) (w : Who) (g : Fin 512) (q : Fin 256) (n : Fin 128), s.Idle w →
    let x := s.sq g
    let c := s.cq q
    let OnlyCq (t : State) (d : Cq) : Prop := t.cq q = d ∧ (∀ p, p ≠ q → t.cq p = s.cq p)
      ∧ t = { s with pins := t.pins, pwr := t.pwr, cnt := t.cnt, dict := t.dict, flt := (s.flt.withLogs t.flt), cqs := t.cqs }
    (s.writeDenied w (.sqEnable g) = none →
      (x.owner = some n → x.state = .disabled → s.noRings = false → (s.inst n).state.mayEnable = true →
        (∃ p, s.cqOfSq g = some p ∧ (s.cq p).enabled = true) → ((s.inst n).isTc = false ∨ s.tcLoad g x.cadence ≤ 5000000) →
        s.Answers w (exec (.sqEnable w g) s) .ok fun t => (t.sq g).state = .enabled ∧ (t.sq g).stopCause = 0
          ∧ (t.sq g).slice = [] ∧ (t.sq g).consumed = x.consumed ∧ (∀ h, h ≠ g → t.sq h = s.sq h) ∧ t.vault = s.vault
          ∧ t.rt = s.rt ∧ t.cfg = s.cfg)
      ∧ (x.owner = none ∨ x.state = .enabled ∨ x.state = .stopped → s.Answers w (exec (.sqEnable w g) s) .stateConflict fun t =>
          t = { s with pins := t.pins, pwr := t.pwr, cnt := t.cnt, dict := t.dict, flt := (s.flt.withLogs t.flt) })
      ∧ (x.owner = some n → x.state = .draining → s.noRings = false →
        ((s.inst n).isTc = false ∨ s.tcLoad g x.cadence ≤ 5000000) → s.Answers w (exec (.sqEnable w g) s) .busyDeferred fun t =>
          (t.sq g).state = .deferred ∧ t.vault = s.vault ∧ t.rt = s.rt ∧ t.cfg = s.cfg)
      ∧ (x.owner = some n → x.state = .enabled ∨ x.state = .stopped → s.Answers w (exec (.sqDisable w g) s) .ok fun t =>
          (t.sq g).state = .draining ∧ (t.sq g).hold = none ∧ (∀ h, h ≠ g → t.sq h = s.sq h) ∧ t.vault = s.vault
            ∧ t.rt = s.rt ∧ t.cfg = s.cfg)
      ∧ (x.owner = some n → x.state = .disabled ∨ x.state = .draining → s.Answers w (exec (.sqDisable w g) s) .ok fun t =>
          t = { s with pins := t.pins, pwr := t.pwr, cnt := t.cnt, dict := t.dict, flt := (s.flt.withLogs t.flt) }))
    ∧ (s.writeDenied w (.cqEnable q) = none →
      (c.owner = some n → c.enabled = false → s.noRings = false → (s.inst n).state.mayEnable = true →
        (c.tail - c.head).toNat ≤ c.size →
        s.Answers w (exec (.cqEnable w q) s) .ok fun t => OnlyCq t { c with enabled := true, armed := true, irqNow := c.irqSet })
      ∧ (c.owner = some n → c.enabled = false → s.noRings = false → (s.inst n).state.mayEnable = true →
        c.size < (c.tail - c.head).toNat → s.Answers w (exec (.cqEnable w q) s) .range fun t => OnlyCq t c)
      ∧ (c.owner = some n → c.enabled = true → (∀ h ∈ s.sqsOf n, s.cqOfSq h = some q → (s.sq h).state = .disabled) →
        c.reserved = 0 → c.overflow = [] →
        s.Answers w (exec (.cqDisable w q) s) .ok fun t => OnlyCq t { c with enabled := false })
      ∧ (c.owner = some n → c.enabled = true → c.reserved ≠ 0 ∨ c.overflow ≠ [] →
        s.Answers w (exec (.cqDisable w q) s) .stateConflict fun t => OnlyCq t c))

/-- R89, R91 to R96, R101, R117, R122 to R125, R363: life-cycle moves, debug, measurement, attestation, deliveries: what each
does when its tokens, signatures and state are good, and what it refuses. That DEBUG_ENABLE in FIELD and SCRAP is STATE_CONFLICT, and that
the restart takes place in the step of the request, is the model's reading (log entries 23 and 36). -/
def Obligations.LifeRequests : Prop :=
  ∀ (s : State) (w : Who) (b : Bytes), s.Idle w →
    let Quiet (t : State) : Prop := t = { s with pins := t.pins, pwr := t.pwr, cnt := t.cnt, dict := t.dict, flt := (s.flt.withLogs t.flt) }
    (∀ aim, s.writeDenied w .lcRequest = none → s.lcDenied w b = false → b.length = 8 → Lc.ofCode (byteAt b 0) = some aim →
        allZero (slice b 1 3) = true → le b 4 4 = 0x5C4A9D21 →
        (s.quietInsts = true → s.life.debug = false → s.mayMove aim = true → s.lcTokens aim = true →
          ∃ t, exec (.lcRequest w b) s = .next t ∧ t.life.fuse = aim ∧ t.life.restart = true ∧ t.pwr.dieReset = true
            ∧ t.pins.kbZeroise = true ∧ t.keys.slots = [] ∧ t.edge.table = [] ∧ t.jobs = [] ∧ t.vault.lcSeen = aim.code
            ∧ (aim = .scrap → t.vault = { Vault.zero with lcSeen := aim.code })
            ∧ (aim = .provision ∨ aim = .ret → t.vault.map = true ∧ t.vault.counters = Vault.zero.counters
                ∧ t.vault.roots = Vault.zero.roots ∧ ∃ d, t.vault.dus = some d ∧ d.length = 32)
            ∧ (aim = .field → t.vault.roots = s.vault.pendRoots ∧ t.vault.anchor = s.vault.pendAnchor ∧ t.vault.dus = s.vault.dus)
            ∧ t.tamper = s.tamper)
        ∧ (s.mayMove aim = false → s.Answers w (exec (.lcRequest w b) s) .stateConflict Quiet))
    ∧ (s.writeDenied w .debugEnable = none → b = [1#8] → s.life.debug = false → s.life.fuse = .provision →
        (∀ n : Fin 128, n ≠ 0 → (s.inst n).state ≠ .active) →
        ∃ t, exec (.debugEnable w b) s = .next t ∧ t.life.debug = true ∧ t.pins.dbgPermit = true ∧ t.pins.kbZeroise = true
          ∧ t.pins.casBypass = true ∧ t.keys.slots = [] ∧ t.edge.table = [] ∧ t.cas.role = .solo ∧ t.vault = s.vault
          ∧ t.life.fuse = s.life.fuse)
    ∧ (s.writeDenied w .debugEnable = none → b = [1#8] → s.life.debug = false → s.life.fuse = .field ∨ s.life.fuse = .scrap →
        s.Answers w (exec (.debugEnable w b) s) .stateConflict Quiet)
    ∧ (s.writeDenied w .hostMeasure = none → b.length = 48 → s.life.hostMeasure = none →
        s.Answers w (exec (.hostMeasure w b) s) .ok fun t => t.life = { s.life with hostMeasure := some b }
          ∧ t = { s with pins := t.pins, pwr := t.pwr, cnt := t.cnt, dict := t.dict, flt := (s.flt.withLogs t.flt), life := t.life })
    ∧ (s.writeDenied w .hostMeasure = none → b.length = 48 → s.life.hostMeasure.isSome →
        s.Answers w (exec (.hostMeasure w b) s) .stateConflict Quiet)
    ∧ (s.writeDenied w .recoveryAttest = none → b.length = 32 → s.openRefused w .recoveryAttest 32 = none →
        s.Answers w (exec (.recoveryAttest w b) s) .ok fun t => (∃ sigs, t.life = { s.life with attest := s.attestBody b ++ sigs })
          ∧ t.vault = s.vault ∧ t.keys = s.keys)
    ∧ (∀ root, s.writeDenied w .rootDelivery = none → s.openRefused w .rootDelivery b.length = none → le b 0 2 = 0x0101 →
        1 ≤ byteAt b 2 → byteAt b 2 ≤ 9 → allZero (slice b 3 5) = true →
        ((s.openDelivery b).1 = some root → ∃ t, exec (.rootDelivery w b) s = .next t ∧ t.Told w .ok
          ∧ t.vault.root (byteAt b 2) = some root ∧ t.vault.seqs.toList.getD (byteAt b 2 - 1) 0 = le b 8 8
            ∧ (∀ p ∈ t.keys.slots, p.2.root ≠ some (byteAt b 2)) ∧ (∀ p ∈ t.edge.table, p.2.root ≠ some (byteAt b 2))
            ∧ t.vault.dus = s.vault.dus ∧ t.vault.anchor = s.vault.anchor ∧ t.vault.counters = s.vault.counters)
        ∧ ((s.openDelivery b).1 = none → s.Answers w (exec (.rootDelivery w b) s) .authFail fun t => t.vault = s.vault
            ∧ t.keys = s.keys))
    ∧ (s.writeDenied w .anchorRestore = none → s.openRefused w .anchorRestore b.length = none → le b 0 2 = 0x0401 →
        byteAt b 2137 = Lc.field.code → allZero (slice b 2 6) = true → allZero (slice b 2138 6) = true →
        (s.vault.anchor = none → s.restoreOk b = true → s.Answers w (exec (.anchorRestore w b) s) .ok fun t =>
          t.vault = { s.vault with anchor := some (slice b 8 2049) } ∧ t.life.vaultLost = false)
        ∧ (s.vault.anchor.isSome → s.Answers w (exec (.anchorRestore w b) s) .stateConflict fun t => t.vault = s.vault
            ∧ t.life = s.life))
    ∧ (s.writeDenied w .anchorPkg = none → s.openRefused w .anchorPkg b.length = none → le b 0 2 = 0x0201 → byteAt b 2 < 8 →
        byteAt b 3 < 8 → allZero (slice b 4 4) = true → s.life.fuse = .field → s.packageOk b = true →
        s.mayCommit (commitRecs [(.anchorPkg, b)] none) = true →
        ∃ t, exec (.anchorPkg w b) s = .next t ∧ s.AskedCards t ∧ s.Committing t w [(.anchorPkg, b)] none ∧ t.cfg = s.cfg)

/-- R154, R273, R274, R336, R362, R372, R374, R375, R378 to R381, R383, R387, R410: what the remaining commands of the catalogue
do, in the state and with the values that they need. That TMP_CLEAR needs no read of TAMPER_STATUS before it, and which crossing FIFOs show
their words, is the model's choice (log entries 49 and 21). -/
def Obligations.ServiceRequests : Prop :=
  ∀ (s : State) (w : Who) (b : Bytes), s.Idle w →
    let Plain (t : State) : Prop := t.vault = s.vault ∧ t.rt = s.rt ∧ t.keys = s.keys ∧ t.life = s.life
    (∀ n j x, w = .inst n → loadOk b = true → s.cfg.chanOwner.toList.getD (byteAt b 8) none = some n →
        s.handleSlot n (le b 4 4) = .ok (j, x) → x.usage = 0x31 → x.key.length = 16 → x.sealedOnly = false → x.evicting = none →
        s.loadConflict n b = false → s.Answers w (exec (.edgeLoad w b) s) .ok fun t => ∃ e, t.edge.table.lookup (le b 0 2) = some e
          ∧ e.owner = n ∧ e.chan = byteAt b 8 ∧ e.dataId = le b 2 2 ∧ e.fvLast = le b 16 8 ∧ xorB e.shareA e.shareB = x.key
          ∧ (∀ k, k ≠ le b 0 2 → t.edge.table.lookup k = s.edge.table.lookup k) ∧ Plain t)
    ∧ (w = .mgr → b.length = 2 → ofLe b < 512 → s.Answers w (exec (.edgeFree w b) s) .ok fun t =>
        t.edge = { s.edge with table := s.edge.table.filter (·.1 != ofLe b) }
          ∧ t = { s with pins := t.pins, pwr := t.pwr, cnt := t.cnt, dict := t.dict, flt := (s.flt.withLogs t.flt), edge := t.edge })
    ∧ (s.writeDenied w .jnlCompact = none → b = [1#8] → s.jnl.state = .ready → s.Answers w (exec (.jnlCompact w b) s) .ok fun t =>
        t.jnl = { s.jnl with state := .compacting }
          ∧ t = { s with pins := t.pins, pwr := t.pwr, cnt := t.cnt, dict := t.dict, flt := (s.flt.withLogs t.flt), jnl := t.jnl })
    ∧ (∀ k : Fin 4, s.writeDenied w (.wakeKey k) = none → b.length = 32 → 
        (∀ r, byteAt b 0 ≤ 9 → allZero (slice b 1 3) = true → s.rootKey (byteAt b 0) = some r →
          s.Answers w (exec (.wakeKey w k b) s) .ok fun t =>
            t.vault = { s.vault with
              sentry := (s.vault.sentry.set k (some ⟨leafKey r (internalLabel 6 (b.drop 4)) none, byteAt b 0⟩)) }
            ∧ t = { s with pins := t.pins, pwr := t.pwr, cnt := t.cnt, dict := t.dict, flt := (s.flt.withLogs t.flt), vault := t.vault })
        ∧ (byteAt b 0 = 0xFF → allZero (b.drop 1) = true → s.Answers w (exec (.wakeKey w k b) s) .ok fun t =>
            t.vault = { s.vault with sentry := s.vault.sentry.set k none }))
    ∧ (∀ e, s.writeDenied w .faultInject = none → b.length = 8 → byteAt b 1 = 0 → allZero (slice b 4 4) = true →
        injectEngine (byteAt b 0) (le b 2 2) = some e →
        (s.life.debug = true → s.Answers w (exec (.faultInject w b) s) .ok fun t =>
          t.units.eng[e] = { s.units.eng[e] with inject := true } ∧ (∀ f, f ≠ e → t.units.eng[f] = s.units.eng[f]) ∧ Plain t)
        ∧ (s.life.debug = false → s.Answers w (exec (.faultInject w b) s) .stateConflict fun t => t.units = s.units ∧ Plain t))
    ∧ (s.writeDenied w .faultInject = none → b.length = 8 → byteAt b 0 = 6 → byteAt b 1 = 0 → le b 2 2 < 384 → allZero (slice b 4 4) = true →
        s.life.debug = true → fifoShown (le b 2 2) = true → s.Answers w (exec (.faultInject w b) s) .ok fun t =>
          t.flt.fifo = s.flt.fifo ++ [le b 2 2] ∧ t.flt.causes = s.flt.causes ∧ Plain t)
    ∧ (s.writeDenied w .faultInject = none → b.length = 8 → byteAt b 0 = 6 → byteAt b 1 = 0 → le b 2 2 < 384 → allZero (slice b 4 4) = true →
        s.life.debug = true → fifoShown (le b 2 2) = false → s.Answers w (exec (.faultInject w b) s) .ok fun t =>
          t.flt.fifo = s.flt.fifo ∧ t.flt.causes.getLsbD 23 = true ∧ Plain t)
    ∧ (w = .mgr → s.writeDenied w .sessionClose = none → b.length = 4 → s.Answers w (exec (.sessionClose w b) s) .ok fun t =>
        (∀ k : Fin 8, t.eoa.sessions[k] = if (s.eoa.sessions[k]).any (fun x => x.number == ofLe b) then none else s.eoa.sessions[k])
          ∧ Plain t)
    ∧ (s.writeDenied w .rtLoad = none → s.openRefused w .rtLoad b.length = none → b.length = 8 + 32 * le b 2 2 →
        (1 ≤ le b 2 2 → le b 0 2 + le b 2 2 ≤ 1024 → allZero (slice b 4 4) = true → (∀ i < le b 2 2, loadEntryOk b i = true) →
          s.Answers w (exec (.rtLoad w b) s) .ok fun t => t.rt.fence = s.rt.fence ∧ ∀ e : Fin 1024, t.rt.entries[e] =
            if le b 0 2 ≤ e.val ∧ e.val < le b 0 2 + le b 2 2 then loadEntry b (e.val - le b 0 2) else s.rt.entries[e])
        ∧ ((∃ i < le b 2 2, loadEntryOk b i = false) → s.Answers w (exec (.rtLoad w b) s) .range fun t => t.rt = s.rt))
    ∧ (∀ key, s.writeDenied w .recAppend = none → s.openRefused w .recAppend b.length = none → b ≠ [] →
        s.vault.cardCounters[s.cfg.recCounter].toNat ≠ allOnes64 → s.card.state = .ready → s.cardKey = some key →
        ∃ t a, exec (.recAppend w b) s = .next t ∧ s.AskedCards t
          ∧ t.card = { s.card with append := some a, cmds := a.writeCmds } ∧ a.phase = .data
          ∧ a.payload = b ∧ a.counter = s.cfg.recCounter ∧ a.number = s.vault.cardCounters[s.cfg.recCounter].toNat + 1
          ∧ a.bytes = s.record key a.counter a.number b ∧ t.dict.appendBy = some w ∧ Plain t)
    ∧ (let Starts (o : Obj) (c : Host.Outcome State Fault Refusal) : Prop := s.writeDenied w o = none → o.lengthOk b.length = true →
          s.persistRange o b = true → s.persistState o b = true → s.mayCommit (commitRecs [(o, b)] none) = true →
          ∃ t, c = .next t ∧ s.AskedCards t ∧ s.Committing t w [(o, b)] none ∧ t.cfg = s.cfg ∧ Plain t;
        (ofLe b ≤ 1 → Starts .s1Enable (exec (.s1Enable w b) s)) ∧ (s.jnl.sameUpdate b = false → Starts .updBegin (exec (.updBegin w b) s)))
    ∧ (s.writeDenied w .updAbandon = none → b = [1#8] → s.jnl.updState ≠ .idle →
        s.mayCommit (commitRecs [(.updState, [0#8])] none) = true →
        ∃ t, exec (.updAbandon w b) s = .next t ∧ s.AskedCards t ∧ s.Committing t w [(.updState, [0#8])] none ∧ Plain t)
    ∧ (∀ total, s.writeDenied w .updSegment = none → b.length ≤ roomOf w → b.length < 8 → b.length ≤ total → total ≤ 65544 →
        allZero (slice b 4 4) = true → (b.length < 4 ∨ le b 0 4 < s.jnl.segCount) → s.jnl.updOpen = none → s.jnl.state = .ready →
        s.Answers w (exec (.updSegment w true false total b) s) .ok fun t => t.jnl = { s.jnl with updOpen := some (w, total, b) }
          ∧ Plain t)
    ∧ (∀ mask : BitVec 8, s.writeDenied w .tmpClear = none →
        (s.pins.tmpLevel &&& mask = 0#8 → s.Answers w (exec (.tmpClear w mask) s) .ok fun t =>
          t.tamper = { s.tamper with latched := s.tamper.latched &&& ~~~mask }
            ∧ t = { s with pins := t.pins, pwr := t.pwr, cnt := t.cnt, dict := t.dict, flt := (s.flt.withLogs t.flt), tamper := t.tamper })
        ∧ (s.pins.tmpLevel &&& mask ≠ 0#8 → s.Answers w (exec (.tmpClear w mask) s) .stateConflict fun t => t.tamper = s.tamper))
    ∧ (∀ (n : Fin 128) (m : Fin 4) (d : Fin 128), s.writeDenied w (.pelMove n) = none → b = [BitVec.ofNat 8 m.val, BitVec.ofNat 8 d.val] ++ zeros 6 →
        (s.inst n).state = .configured → (s.inst n).quiesced = true → s.reaches m = true → (s.inst n).pelPeer = none →
        s.Answers w (exec (.pelMove w n b) s) .ok fun t =>
          t.inst n = { s.inst n with pelResult := 1, pelPeer := some ⟨m, d, .sent⟩ } ∧ s.OtherInsts t n
            ∧ t.cas.held = s.cas.held ++ [s.casOut m (s.moveBody n d)] ∧ Plain t)

/-! ## EOA over the network -/

/-- R359, R360, R364 to R368: a HELLO opens an opening and, whole and good, is answered with HELLO_REPLY; a FINISH opens the
session; a REQUEST in sequence runs and its RESPONSE is kept, and sent again for the same SEQ; a CLOSE is answered and ends
the session; a PDU whose tag fails is counted, and SEQ never passes 2^32 - 1. The numbering of sessions, how a HELLO's fragments are matched,
the order of its refusals, and what a frame of bad form gives, are the model's reading (log entry 34). -/
def Obligations.EoaMessages : Prop :=
  ∀ (s : State) (f : EoaIn) (k : Fin 8) (x : Session) (via : Via) (pdu : Bytes), s.oflRxReady = true → s.flt.fifo = [] →
    s.pduOf f = some (via, pdu) → pduOk pdu = true →
    let p := pdu.take (pduLen pdu)
    let q := pduSeq p
    let u0 := (s.exchange 0 (.pdu f.raw)).endRx via
    let source (y : Session) : Bool := !y.opened && y.via == via && y.port == f.port && y.hello.isEmpty
    let recent := s.eoa.hellos.filter fun c => decide (s.now < c + 60 * 10 ^ 9)
    let new := Session.opening s.eoa.nextNum via f.port s.now
    let y := x.addFrag p s.now
    let u := (((u0.setSession k (some y)).count 0x201A 1).engineWork).exchange 0 (.tbTime s.pins.tbTime)
    let Others (t : State) : Prop := ∀ j : Fin 8, j ≠ k → (t.eoa.sessions[j] : Option Session) = s.eoa.sessions[j]
    let Sends (t : State) (v : Via) (port : Nat) (l : List Bytes) : Prop :=
      t.eoa.held = s.eoa.held ++ l.map fun b => (⟨v, port, b⟩ : EoaOut)
    let Framed (t : State) : Prop := Others t ∧ t.eoa = { u0.eoa with sessions := t.eoa.sessions, held := t.eoa.held }
    let Refused (o : Host.Outcome State Fault Refusal) (num : Nat) (st : EStatus) : Prop := ∃ t, o = .next t
      ∧ t.eoa.sessions[k] = none ∧ Sends t x.via x.port [errorPdu st num] ∧ Framed t
      ∧ (t.jnl.events.getLast?).map (fun e => (e.code, e.detail))
        = some (0x0009, padTo 8 (toLe 2 st.code ++ toLe 1 (viaCode x.via) ++ toLe 1 x.port))
      ∧ t = { s with eoa := t.eoa, cnt := t.cnt, pwr := u.pwr, jnl := t.jnl, flt := s.flt.withLogs t.flt }
    (pduType pdu = 1 →
      (s.findSession source = none → s.pwr.prep = none → fragNo p = 0 → recent.length < 16 → s.openingRefused = none →
        ((List.finRange 8).find? fun j => (s.eoa.sessions[j] : Option Session).isNone) = some k → 1 < fragCount p →
        new.fragOk p 6746 = true → ∃ t, exec (.hello f) s = .next t ∧ t.eoa.sessions[k] = some (new.addFrag p s.now) ∧ Others t
          ∧ t.eoa = { u0.eoa with
              sessions := t.eoa.sessions, hellos := recent ++ [s.now]
              nextNum := if s.eoa.nextNum = 0xFFFFFFFF then 1 else s.eoa.nextNum + 1 }
          ∧ t = { u0 with cnt := t.cnt, eoa := t.eoa })
      ∧ (s.findSession source = none → s.pwr.prep = none → fragNo p = 0 → 16 ≤ recent.length →
          exec (.hello f) s = .next { u0 with eoa := { u0.eoa with hellos := recent, helloDrops := s.eoa.helloDrops + 1 } })
      ∧ (s.findSession source = none → fragNo p ≠ 0 → exec (.hello f) s = .next (u0.count 0x201A 2))
      ∧ (s.findSession source = some (k, x) → x.fragOk p 6746 = false → ∃ t, exec (.hello f) s = .next t
          ∧ t.eoa.sessions[k] = none ∧ Sends t x.via x.port [errorPdu .typeLength 0] ∧ Framed t)
      ∧ (∀ m, s.findSession source = some (k, x) → x.fragOk p 6746 = true → y.message = some m → m.length = 6746 →
        (u.helloRefused m = none → ∃ t z, exec (.hello f) s = .next t ∧ t.eoa.sessions[k] = some z ∧ z.opened = false
          ∧ z.hello = m ∧ z.reply = (u.helloReply m).1 ∧ z.secret = (u.helloReply m).2.1 ∧ z.anchor = some (byteAt m 1254)
          ∧ Sends t x.via x.port (handshake 2 x.number z.reply) ∧ Framed t
          ∧ t = { s with eoa := t.eoa, cnt := t.cnt, pwr := u.pwr, free := t.free, rng := t.rng, flt := s.flt.withLogs t.flt })
        ∧ (∀ st, u.helloRefused m = some st → Refused (exec (.hello f) s) 0 st)))
    ∧ (∀ m, pduType pdu = 3 →
        s.findSession (fun y => !y.opened && y.number == pduSession p && !y.hello.isEmpty && y.via == via && y.port == f.port) =
          some (k, x) → x.fragOk p 3405 = true → y.message = some m → m.length = 3405 →
        let good := sigsOk x.clientEc 0x49 x.clientPq (digest 0x32 48 (x.hello ++ x.reply)) (m.take 96) (m.drop 96)
        let z := y.opened_ m s.now
        (s.openCount < s.cfg.sessionsMax → good = true → ∃ t, exec (.finish f) s = .next t ∧ t.eoa.sessions[k] = some z ∧ Framed t
          ∧ Sends t x.via x.port [z.protect 4 0 (toLe 1 x.roles ++ zeros 3 ++ toLe 4 s.cfg.idleLimit)]
          ∧ t = { u0 with eoa := t.eoa, cnt := t.cnt, pwr := u.pwr })
        ∧ (s.openCount < s.cfg.sessionsMax → good = false → Refused (exec (.finish f) s) x.number .authFail)
        ∧ (s.cfg.sessionsMax ≤ s.openCount → Refused (exec (.finish f) s) x.number .stateConflict))
    ∧ (s.findSession (fun y => y.opened && y.number == pduSession p) = some (k, x) →
      (x.unprotect p = none → ∀ c ∈ [(0x10, Instr.request f), (0x1F, Instr.close f)], pduType pdu = c.1 →
        ∃ t, exec c.2 s = .next t ∧ t.eoa.sessions[k] = some { x with drops := x.drops + 1 } ∧ Framed t ∧ t.eoa.held = s.eoa.held
          ∧ t = { u0 with eoa := t.eoa, cnt := t.cnt })
      ∧ (∀ b, x.unprotect p = some b →
        (∀ c ∈ [(0x10, Instr.request f), (0x1F, Instr.close f)], pduType pdu = c.1 → q = x.lastSeq + 1 → x.inProcess = false →
          2 ^ 32 ≤ q → ∃ t, exec c.2 s = .next t ∧ t.eoa.sessions[k] = none ∧ Framed t ∧ t.eoa.held = s.eoa.held)
        ∧ (∀ r, pduType pdu = 0x10 → q = x.lastSeq → x.stored = some r → ∃ t, exec (.request f) s = .next t ∧ Framed t
          ∧ t.eoa.sessions[k] = some { x with lastTime := s.now } ∧ Sends t x.via x.port [r] ∧ t = { u0 with eoa := t.eoa, cnt := t.cnt })
        ∧ (∀ i sub o, pduType pdu = 0x10 → q = x.lastSeq + 1 → x.inProcess = false → q < 2 ^ 32 → s.dictBusy = false →
          s.dict.batch = none → s.dict.waiting = [] → s.pwr.prep = none →
          parseBatch k x.number q b = .ok ⟨k, x.number, q, 1, false, [⟨i, sub, false, .read o⟩], [], none⟩ →
          let z := x.accept via f.port q s.now
          let v := (u0.count 0x201A 1).setSession k (some z)
          let a := z.protect 0x11 q (responseBody 1 false .ok 0 [⟨.ok, i, sub, false, 0, v.valueOf o⟩])
          v.readDenied (.session k) o = none → o.isDomain = false → (v.valueOf o).length ≤ 1448 →
          ∃ t, exec (.request f) s = .next t ∧ t.eoa.sessions[k] = some { z with stored := some a, inProcess := false } ∧ Framed t
            ∧ Sends t via f.port [a] ∧ t.dict.last = .ok
            ∧ t = { u0 with eoa := t.eoa, cnt := t.cnt, pwr := { s.pwr with coastCause := t.pwr.coastCause }, dict := t.dict })
        ∧ (pduType pdu = 0x1F → q = x.lastSeq + 1 → x.inProcess = false → q < 2 ^ 32 → ∃ t, exec (.close f) s = .next t
          ∧ t.eoa.sessions[k] = none ∧ Framed t ∧ Sends t via f.port [x.protect 0x1F q []]
          ∧ t = { u0 with eoa := t.eoa, cnt := t.cnt, dict := t.dict, jnl := { s.jnl with updOpen := t.jnl.updOpen } })))

/-- R361, R367, R368: a session ends at 16 drops and at IDLE_LIMIT, an opening after 10 s, with everything it had open, and the dropped
opening is counted; the transport's time-out ends the reception, or the transmission, and the next PDU goes out. That an opening which times
out counts as dropped, and that the row serves N_Bs too, is log entry 34; ISO 15765-2 itself is log entry 10. -/
def Obligations.EoaTimers : Prop :=
  ∀ (s : State) (k : Fin 8) (b : Fin 4),
    let u := s.exchange 0 .tick
    let Gone (t : State) : Prop := t.eoa.sessions[k] = none
      ∧ (∀ j : Fin 8, j ≠ k → (t.eoa.sessions[j] : Option Session) = s.eoa.sessions[j])
      ∧ t.eoa = { s.eoa with sessions := t.eoa.sessions } ∧ t.transfer (.session k) = none
    let Only (t : State) (x : IsoTp) (out : List Bytes) : Prop :=
      t = { u with eoa := { s.eoa with tp := s.eoa.tp.set b x, out := s.eoa.out ++ out } }
    let pad := List.replicate 2 (s.bindPad b)
    (∀ x, s.eoa.sessions[k] = some x →
      (x.opened = true → 16 ≤ x.drops → ∃ t, exec (.sessionDropLimit k) s = .next t ∧ Gone t
        ∧ t = { s with eoa := t.eoa, dict := t.dict, jnl := { s.jnl with updOpen := t.jnl.updOpen } })
      ∧ (x.drops < 16 → exec (.sessionDropLimit k) s = .next s)
      ∧ (x.opened = true → ∃ t, exec (.idleLimit k) s = .next t ∧ Gone t
        ∧ t = { u with eoa := t.eoa, dict := t.dict, jnl := { s.jnl with updOpen := t.jnl.updOpen } })
      ∧ (x.opened = false → ∃ t, exec (.openingIdle k) s = .next t ∧ Gone t
        ∧ t = { (u.count 0x201A 2) with eoa := t.eoa, dict := t.dict, jnl := { s.jnl with updOpen := t.jnl.updOpen } }))
    ∧ (s.eoa.sessions[k] = none → ∀ c ∈ [Instr.sessionDropLimit k, .openingIdle k, .idleLimit k], exec c s = .next s)
    ∧ (s.alive = false → ∀ d, exec (.nCrTimeout b d) s = .next s)
    ∧ (s.alive = true → let x := s.eoa.tp[b]
      (∃ t, exec (.nCrTimeout b false) s = .next t ∧ Only t { x with rx := none } [])
      ∧ (x.queue = [] → ∃ t, exec (.nCrTimeout b true) s = .next t ∧ Only t { x with tx := none } [])
      ∧ (∀ p, x.queue = [p] → p.length = 60 → s.flt.fifo = [] → ∃ t, exec (.nCrTimeout b true) s = .next t
          ∧ Only t { x with tx := none, queue := [] }
            [eoaBeat 2 (byteAt s.cfg.canBinds[b] 0) 64 (s.canId b 8) ++ [0#8, 60#8] ++ p ++ pad])
      ∧ (∀ p, x.queue = [p] → 62 < p.length → s.flt.fifo = [] → ∃ t, exec (.nCrTimeout b true) s = .next t
          ∧ Only t { x with tx := some (p.drop 62), txSn := 1, queue := [] }
            [eoaBeat 2 (byteAt s.cfg.canBinds[b] 0) 64 (s.canId b 8) ++ toBe 2 (0x1000 + p.length) ++ p.take 62]))

/-- R359, R361: a first frame opens reassembly and is answered with flow control, or with OVFLW; consecutive frames add their
bytes in order; flow control lets the response go on, wait, or end. What R361 takes from ISO 15765-2, such as that a new PDU ends an open
reception, is log entry 10; that flow control leaves at once is log entry 34. -/
def Obligations.CanFrames : Prop :=
  ∀ (s : State) (f : EoaIn) (b : Fin 4), s.oflRxReady = true → s.flt.fifo = [] → s.bindingOf f = some b →
    let data := f.frame
    let x := s.eoa.tp[b]
    let u := s.exchange 0 (.pdu f.raw)
    let n := ofBe (data.take 2) % 4096
    let kind (k : Nat) : Prop := byteAt data 0 / 16 = k
    let frame (d : Bytes) : Bytes := eoaBeat 2 (byteAt s.cfg.canBinds[b] 0) d.length (s.canId b 8) ++ d
    let pad (d : Bytes) : Bytes := d ++ List.replicate (canLen d.length - d.length) (s.bindPad b)
    let fc (c : Byte) : List Bytes := [frame [c, BitVec.ofNat 8 (s.bindBs b), BitVec.ofNat 8 (s.bindStmin b)]]
    let Only (c : Host.Outcome State Fault Refusal) (y : IsoTp) (out : List Bytes) : Prop :=
      c = .next { u with eoa := { s.eoa with tp := s.eoa.tp.set b y, out := s.eoa.out ++ out } }
    (kind 1 →
      (1 ≤ n → n ≤ 1500 → data.length - 2 < n →
          Only (exec (.firstFrame f) s) { x with rx := some (data.drop 2), rxTotal := n, rxSn := 1, rxBlock := s.bindBs b } (fc 0x30#8))
      ∧ (n = 0 ∨ 1500 < n → Only (exec (.firstFrame f) s) { x with rx := none } (fc 0x32#8)))
    ∧ (∀ got, kind 2 → x.rx = some got →
      (byteAt data 0 % 16 ≠ x.rxSn % 16 → Only (exec (.consecutiveFrame f) s) { x with rx := none } [])
      ∧ (byteAt data 0 % 16 = x.rxSn % 16 → (got ++ data.drop 1).length < x.rxTotal →
        (x.rxBlock ≠ 1 → Only (exec (.consecutiveFrame f) s) { x with rx := some (got ++ data.drop 1), rxSn := x.rxSn + 1, rxBlock := x.rxBlock - 1 } [])
        ∧ (x.rxBlock = 1 →
          Only (exec (.consecutiveFrame f) s) { x with rx := some (got ++ data.drop 1), rxSn := x.rxSn + 1, rxBlock := s.bindBs b } (fc 0x30#8)))
      ∧ (byteAt data 0 % 16 = x.rxSn % 16 → x.rxTotal ≤ (got ++ data.drop 1).length →
          pduOk ((got ++ data.drop 1).take x.rxTotal) = false →
          exec (.consecutiveFrame f) s = .next (({ u with eoa := { s.eoa with tp := s.eoa.tp.set b { x with rx := none } } }).count 0x201A 2)))
    ∧ (∀ rest, kind 3 → x.tx = some rest →
      (byteAt data 0 % 16 = 0 → rest.length ≤ 63 → x.queue = [] →
        Only (exec (.flowControl f) s) { x with tx := none } [frame (pad (BitVec.ofNat 8 (0x20 + x.txSn % 16) :: rest))])
      ∧ (byteAt data 0 % 16 = 0 → byteAt data 1 = 1 → 63 < rest.length →
        Only (exec (.flowControl f) s) { x with tx := some (rest.drop 63), txSn := x.txSn + 1 }
          [frame (BitVec.ofNat 8 (0x20 + x.txSn % 16) :: rest.take 63)])
      ∧ (byteAt data 0 % 16 = 1 → exec (.flowControl f) s = .next u)
      ∧ (2 ≤ byteAt data 0 % 16 → x.queue = [] → Only (exec (.flowControl f) s) { x with tx := none } []))
    ∧ (kind 2 → x.rx = none → exec (.consecutiveFrame f) s = .next u) ∧ (kind 3 → x.tx = none → exec (.flowControl f) s = .next u)

/-! ## Tandems and the journal -/

/-- R451 to R454, R22 to R25: a checkpoint of a tandem empties its input log and releases its outputs in order, EOA frames and the
journal's group for tandem A, a card operation for tandem B; a restart is counted, logged and sets its cause; a second one before a
checkpoint, or TANDEM_RESTARTS of them in the window, retires the tandem, and the other takes its log over. -/
def Obligations.Tandems : Prop :=
  ∀ (s : State) (t : Fin 2), s.alive = true → s.flt.tandems[t].inService = true →
    let x := s.flt.tandems[t]
    let log (r : State) (u : Fin 2) : List (Nat × Sample) := r.flt.tandems[u].log
    let Only (r : State) (y : Tandem) : Prop := r.flt.tandems[t] = { y with log := log r t }
      ∧ (∀ u : Fin 2, u ≠ t → (r.flt.tandems[u] : Tandem) = { s.flt.tandems[u] with log := log r u }) ∧ r.vault = s.vault ∧ r.keys = s.keys
      ∧ r.insts = s.insts ∧ r.jobs = s.jobs ∧ r.cfg = s.cfg ∧ r.rt = s.rt
    let Retired (c : Host.Outcome State Fault Refusal) (causes : BitVec 24) (boot : Boot) : Prop := ∃ r, c = .next r ∧ Only r { x with inService := false }
      ∧ r.flt.causes = causes ∧ r.pwr = { s.pwr with boot := boot }
      ∧ (∀ u : Fin 2, u ≠ t → log s u ++ log s t <+: log r u)
      ∧ (r.jnl.events.getLast?).map (fun e => (e.code, e.detail)) = some (0x0023, padTo 8 [BitVec.ofNat 8 t.val, 2#8])
    let Retires (c : Host.Outcome State Fault Refusal) : Prop := (∀ u : Fin 2, u ≠ t → s.flt.tandems[u].inService = true →
        Retired c (s.flt.causes ||| BitVec.ofNat 24 (2 ^ 9)) .ready)
      ∧ (∀ u : Fin 2, u ≠ t → s.flt.tandems[u].inService = false → ∃ r, c = .next r ∧ r.pins.kbZeroise = true)
      ∧ (∀ u : Fin 2, u ≠ t → s.flt.tandems[u].inService = false → Retired c s.flt.causes .dead)
    let framed (o : EoaOut) : Bytes := match o.via with
      | .eth d tag => eoaBeat 1 o.port (s.ethFrame d tag o.pdu).length 0 ++ s.ethFrame d tag o.pdu
      | .can _ => []
    (∃ r, exec (.tandemCheckpoint t) s = .next r ∧ Only r { x with sinceCkpt := false } ∧ log r t = []
      ∧ (∀ u : Fin 2, u ≠ t → log r u = log s u)
      ∧ (t = 0 → r.eoa.held = [] ∧ r.jnl = { s.jnl with sent := true })
      ∧ (t = 1 → (∀ a, s.card.append = some a → r.card.append = some { a with sent := true })
          ∧ (s.flt.tandems[0].inService = true → r.eoa = s.eoa ∧ r.jnl = s.jnl))
      ∧ (t = 0 → s.flt.tandems[1].inService = true → r.cas = s.cas ∧ r.card = s.card)
      ∧ (s.flt.fifo = [] → r.flt.causes = s.flt.causes)
      ∧ r = { s with flt := r.flt, cnt := r.cnt, eoa := r.eoa, cas := r.cas, jnl := r.jnl, card := r.card })
    ∧ (t = 0 → s.flt.tandems[1].inService = true → s.flt.fifo = [] → (∀ o ∈ s.eoa.held, ∀ b, o.via ≠ .can b) →
        ∃ r, exec (.tandemCheckpoint t) s = .next r ∧ r.eoa = { s.eoa with held := [], out := s.eoa.out ++ s.eoa.held.map framed })
    ∧ (x.sinceCkpt = false → ∃ r, exec (.tandemRestart t) s = .next r
        ∧ Only r { x with restarts := x.restarts ++ [s.now], sinceCkpt := true } ∧ log s t <+: log r t
        ∧ r.flt.causes = s.flt.causes ||| BitVec.ofNat 24 (2 ^ 8)
        ∧ (r.jnl.events.getLast?).map (fun e => (e.code, e.detail)) = some (0x0022, padTo 8 [BitVec.ofNat 8 t.val])
        ∧ r = { s with flt := r.flt, cnt := r.cnt, jnl := r.jnl })
    ∧ (x.sinceCkpt = true → Retires (exec (.tandemRestart t) s))
    ∧ (s.restartsReach t = true → Retires (exec (.tandemRetired t) s)) ∧ (s.restartsReach t = false → exec (.tandemRetired t) s = .next s)

/-- R422 to R427, R392: a group in flight ends durable, with the anchor at its last page and its values in effect, and its requester is
answered; or slot 0 fails, with PERSIST_FAIL and the values as before; held events go out in a group of the block's own and are held no more
once it is durable; a snapshot is begun, with JNL_STATE COMPACTING, and takes the place of older groups once durable; a commit that waited
goes out; the window's end clears the bytes written. That older groups leave the state, that an event is visible before it is durable, and
when a group of the block's own goes out, is the model's reading (log entries 29 and 47). -/
def Obligations.JournalSteps : Prop :=
  ∀ (s : State), s.tandemsRun = true →
    let j := s.jnl
    let Still : Prop := j.half0Due = false ∧ j.half1Due = false ∧ j.heldRecs = [] ∧ j.snapAsked = false
    let Alone : Prop := s.dict.waiting = [] ∧ s.dict.batch = none
    let Kept (t : State) : Prop := t.keys = s.keys ∧ t.insts = s.insts ∧ t.jobs = s.jobs ∧ t.rt = s.rt ∧ t.pending = s.pending
    let Sent (t : State) (recs : List JRec) (snap : Bool) : Prop := ∃ g, t.jnl.inFlight = some g ∧ g.recs = recs ∧ g.snapshot = snap
      ∧ g.first = j.pseq + 1 ∧ g.last = j.pseq + recPages recs ∧ t.jnl.sent = false ∧ t.jnl.dayBytes = j.dayBytes + recBytes recs
      ∧ t.jnl.groups = j.groups ∧ t.jnl.heldEvents = j.heldEvents
      ∧ t = { s with jnl := t.jnl, cnt := t.cnt, pins := { s.pins with s0Clk := t.pins.s0Clk, s1Clk := t.pins.s1Clk } }
    let Durable (t : State) (g : Group) : Prop := t.jnl.pseq = g.last ∧ t.vault = { s.vault with journalAnchor := g.last }
    (∀ g d, j.inFlight = some g → j.sent = false → exec (.journalCommit d) s = .next s)
    ∧ (∀ c g b, s.dict.commit = some c → c.started = true → j.inFlight = some g → j.sent = true → Alone →
        c.who = some .mgr → c.writes = [(.coastAfter, b)] → c.segment = none → c.batch = none →
      (Still → j.heldEvents = [] → ∃ t, exec (.journalCommit true) s = .next t ∧ t.Told .mgr .ok ∧ t.dict.commit = none
        ∧ t.jnl.inFlight = none ∧ t.jnl.groups = j.groups ++ [g] ∧ Durable t g
        ∧ t.jnl.s0Busy = none ∧ t.cfg = { s.cfg with coastAfter := ofLe b } ∧ Kept t)
      ∧ (∃ t, exec (.journalCommit false) s = .next t ∧ t.Told .mgr .persistFail ∧ t.dict.commit = none
        ∧ t.jnl.inFlight = none ∧ t.jnl.state = .failed ∧ t.jnl.s0State = .failed ∧ t.cfg = s.cfg ∧ t.vault = s.vault ∧ Kept t
        ∧ (t.jnl.events.getLast?).map (·.code) = some 0x0031 ∧ t.flt.causes = s.flt.causes ||| BitVec.ofNat 24 (2 ^ 16)))
    ∧ (∀ c d, s.dict.commit = some c → c.started = false → j.inFlight = none → j.s0Waits = false →
        s.mayCommit (commitRecs c.writes c.segment) = true → ∃ t, exec (.journalCommit d) s = .next t
          ∧ t.dict.commit = some { c with started := true } ∧ (∃ g, t.jnl.inFlight = some g ∧ g.recs = commitRecs c.writes c.segment)
          ∧ t.cfg = s.cfg ∧ t.vault = s.vault ∧ Kept t)
    ∧ (∀ d, s.dict.commit = none → Still → Alone → s.eventsReady = true →
        ∃ t, exec (.journalCommit d) s = .next t ∧ Sent t ((eventBatch j.heldEvents).map .event) false)
    ∧ (∀ g, s.dict.commit = none → j.inFlight = some g → j.sent = true → Alone →
        ∃ t, exec (.journalCommit true) s = .next t ∧ Durable t g ∧ t.cfg = s.cfg ∧ Kept t
          ∧ (g.snapshot = false → t.jnl.groups = j.groups ++ [g]
              ∧ t.jnl.heldEvents = j.heldEvents.filter fun e => !g.recs.contains (.event e))
          ∧ (g.snapshot = true → t.jnl.groups = [g] ∧ t.jnl.snapPseq = g.first ∧ t.jnl.sinceSnap = 0 ∧ t.jnl.state ≠ .compacting))
    ∧ (∀ d, s.dict.commit = none → j.inFlight = none → Still → Alone → s.eventsReady = false → exec (.journalCommit d) s = .next s)
    ∧ (s.jnlFree = true → s.snapDue = true → s.exemptFits (recBytes s.snapRecs) = true →
        ∃ t, exec .journalSnapshot s = .next t ∧ Sent t s.snapRecs true ∧ t.jnl.state = .compacting)
    ∧ (Alone → s.snapDue = false → exec .journalSnapshot s = .next s)
    ∧ (s.windowOver = true → Still → Alone → s.dict.commit = none → j.heldEvents = [] → 0 < s.cfg.jnlDayLimit →
        ∃ t, exec .budgetWindowEnd s = .next t ∧ t.jnl = { j with dayBytes := 0, winOpen := false, state := t.jnl.state }
          ∧ t.jnl.state ≠ .budgetHeld ∧ t = { s with jnl := t.jnl, flt := s.flt.withLogs t.flt })
    ∧ (s.windowOver = false → exec .budgetWindowEnd s = .next s)

/-! ## Cards and start-up -/

/-- R69, R377, R378, R398, R403 to R410, R413 to R415: what the two slots do on removal, insertion, debounce and initialisation, at the
end, failure and time-out of an operation, and in a preparation. An initialisation begun ends at an idle step (the model's choice, log entry
3), slot 0's after the one that powers it. The commands and their arguments that the spec does not state are log entry 46, the answers of
R403 and R407 that have no row log entry 31. -/
def Obligations.CardSlot : Prop :=
  ∀ (s : State) (x : S0In), s.dict.batch = none → s.dict.waiting = [] → s.flt.fifo = [] →
    let d := s.card
    let j := s.jnl
    let u := s.exchange 1 .interrupt
    let v := s.exchange 1 .tick
    let Framed (t b : State) : Prop := t = { b with pins := t.pins, card := t.card, cnt := t.cnt, dict := t.dict }
    let Off (t : State) : Prop := t.pins.s1Pwr = false ∧ t.pins.s1Vsel = false ∧ t.pins.s1Clk = false ∧ t.card.append = none
      ∧ t.card.init = none ∧ t.card.mode = 0xFF ∧ t.card.cid = zeros 16
    let Removed (t b : State) : Prop := Framed t b ∧ Off t ∧ t.card.state = .powerOff
      ∧ ∀ c : Fin 16, t.card.recs[c] = { d.recs[c] with last := [] }
    let Told (t : State) (st : EStatus) : Prop := ∀ w a, d.append = some a → s.dict.appendBy = some w →
      t.Told w st ∧ t.dict.appendBy = none
    let clocked (p : Pins) (t : State) : Pins := { p with s0Clk := t.pins.s0Clk, s1Clk := t.pins.s1Clk }
    let Quiet : Prop := s.pending = [] ∧ s.pwr.starting = none ∧ j.headDue = none ∧ (∀ n, (s.inst n).df.waits = false)
      ∧ (s.pins.pmDownReq = true → s.pwr.prep ≠ none)
    let Only0 (o : Host.Outcome State Fault Refusal) (b : State) (i : Jnl) : Prop := ∃ t, o = .next t ∧ t = { b with jnl := i, cnt := t.cnt }
    (s.pins.s1CdHigh = false → s.portAnswers = true → d.state ≠ .powerOff →
        ∃ t, exec .removal s = .next t ∧ Removed t u ∧ t.pins.s1CdHigh = true ∧ Told t .stateConflict)
    ∧ (s.pins.s1CdHigh = true → exec .removal s = .next u)
    ∧ (∀ low, d.state = .powerOff → ∃ t, exec (.powerOffHold low) s = .next t
        ∧ t = { v with pins := { s.pins with s1CdHigh := !low }, card := { d with state := t.card.state } }
        ∧ t.card.state = (if s.cfg.s1Enable then (if low then .debounce else .empty) else .disabled))
    ∧ (s.portAnswers = true → d.state = .empty → s.cfg.s1Enable = true → exec .insertion s = .next
        { u with pins := { s.pins with s1CdHigh := false }, card := { d with state := .debounce } })
    ∧ (∀ c, s.portAnswers = true → d.state = .debounce → s.pins.s1CdHigh = false → s.pwr.prep = none →
        ∃ t, exec (.debounceEnd c) s = .next t ∧ t.pins.s1Clk = true
          ∧ t = { v with pins := clocked { s.pins with s1Pwr := true, s1Vsel := false } t
                         card := { d with state := .init, init := some c, initTries := 0, initTuned := false, permitted := s.cfg.s1Modes } })
    ∧ (∀ c, d.state ≠ .debounce → exec (.debounceEnd c) s = .next v)
    ∧ (∀ c, Quiet → d.init = some c → j.s0Init = none → s.pwr.state = .run →
      ∃ t, step s = .next t ∧ t.card.cmds = s.initCmds c
        ∧ (∀ m, s.initMode c = some m → t.card.state = .ready ∧ t.card.mode = m ∧ t.card.init = none ∧ t.card.rca = c.rca
          ∧ t.card.cid = padTo 16 c.cid ∧ t.pins.s1Pwr = s.pins.s1Pwr ∧ t.pins.s1Vsel = true ∧ t.pins.s1Clk = true
          ∧ (∀ k : Fin 16, let v := s.vault.cardCounters[k]
            (s.recordsOf c.places k = [] → t.card.recs[k] = ⟨0, 4, []⟩ ∧ t.vault.cardCounters[k] = v)
            ∧ (∀ b, s.recordsOf c.places k = [b] → let n := le b 8 8
              (n < v.toNat → t.card.recs[k] = ⟨n, 3, []⟩ ∧ t.vault.cardCounters[k] = v)
              ∧ (n = v.toNat → t.card.recs[k] = ⟨n, 1, slice b 64 (le b 32 4)⟩ ∧ t.vault.cardCounters[k] = v)
              ∧ (n = v.toNat + 1 → t.card.recs[k] = ⟨n, 2, slice b 64 (le b 32 4)⟩
                ∧ t.vault.cardCounters[k] = BitVec.ofNat 64 n)))
          ∧ t.vault = { s.vault with cardCounters := t.vault.cardCounters } ∧ t.keys = s.keys ∧ t.rt = s.rt ∧ t.cfg = s.cfg
          ∧ t.dict = s.dict ∧ t.jobs = s.jobs)
        ∧ (s.initMode c = none → Off t ∧ t.card.state = .failed ∧ t.vault = s.vault ∧ t.keys = s.keys ∧ t.rt = s.rt ∧ t.cfg = s.cfg
          ∧ t.jnl = { j with winElapsed := t.jnl.winElapsed } ∧ t.dict = s.dict ∧ t.jobs = s.jobs))
    ∧ (∀ b, exec (.cardOperationDone 0 b x) s =
        .next (if j.s0State = .ready then { u with jnl := { j with s0Busy := none, s0Tries := 0, s0Stage := 0 } } else u))
    ∧ (∀ a, d.append = some a → a.sent = false → (∀ b, exec (.cardOperationDone 1 b x) s = .next u)
        ∧ exec (.cardTransferFailure 1 false x) s = .next u ∧ ∀ e, exec (.cardTimeout 1 ⟨e, x⟩) s = .next v)
    ∧ (∀ a b, d.append = some a → a.sent = true →
      (a.phase = .data → exec (.cardOperationDone 1 b x) s = .next { u with card := { d with append := some { a with phase := .busy } } })
      ∧ (a.phase = .busy → ∃ t, exec (.cardOperationDone 1 b x) s = .next t
          ∧ t = { u with card := { d with append := some { a with phase := .readBack }, cmds := a.readCmds }, cnt := t.cnt })
      ∧ (a.phase = .readBack → b.take a.bytes.length = a.bytes → ∃ t, exec (.cardOperationDone 1 b x) s = .next t ∧ Told t .ok
        ∧ t.vault = { s.vault with cardCounters := s.vault.cardCounters.set a.counter (BitVec.ofNat 64 a.number) }
        ∧ t.card.append = none ∧ t.card.recs[a.counter] = ⟨a.number, d.recs[a.counter].check, a.payload⟩
        ∧ t = { u with vault := t.vault, card := t.card, dict := t.dict, pins := clocked s.pins t })
      ∧ (a.tries < s.cfg.crcRetries →
        let again : Card := { d with append := some { a with phase := .data, tries := a.tries + 1 }, cmds := ⟨false, 12, 0⟩ :: a.writeCmds }
        (∃ t, exec (.cardTransferFailure 1 false x) s = .next t ∧ t = { u with card := again, cnt := t.cnt })
        ∧ (a.phase ≠ .busy → ∀ e, ∃ t, exec (.cardTimeout 1 ⟨e, x⟩) s = .next t ∧ t = { v with card := again, cnt := t.cnt }))
      ∧ (a.phase = .busy → ∃ t, exec (.cardTimeout 1 ⟨true, x⟩) s = .next t
          ∧ t = { v with card := { d with append := some { a with phase := .readBack }, cmds := a.readCmds }, cnt := t.cnt })
      ∧ (a.phase = .busy → ∃ t, exec (.cardTimeout 1 ⟨false, x⟩) s = .next t ∧ Framed t v ∧ Off t ∧ t.card.state = .failed
        ∧ Told t .stateConflict))
    ∧ (∀ c m, d.append = none → d.init = some c → s.chooseMode c.modes = some m → d.initTries < s.cfg.crcRetries →
        ∃ t, exec (.cardTransferFailure 1 false x) s = .next t
          ∧ t = { u with card := { d with initTries := d.initTries + 1, cmds := [⟨false, 12, 0⟩, ⟨false, 18, 0x800⟩, ⟨false, 12, 0⟩] }, cnt := t.cnt })
    ∧ (∀ a, d.append = some a → s.pwr.prep ≠ none → ∃ t, exec .appendGrace s = .next t ∧ Removed t v ∧ Told t .stateConflict)
    ∧ (j.s0State ≠ .ready → ∀ a, exec (.cardTransferFailure 0 a x) s = .next u ∧ exec (.cardTimeout 0 ⟨a, x⟩) s = .next v)
    ∧ (j.s0State = .ready → j.rpmbOpen = true →
      let Drawn (t : State) : Prop := t = { s with jnl := t.jnl, cnt := t.cnt, rng := t.rng, free := t.free, flt := s.flt.withLogs t.flt }
      (∃ t, exec (.cardTransferFailure 0 true x) s = .next t ∧ Drawn t
        ∧ t.jnl = { j with s0Cmds := rpmbAsk ++ rpmbAsk, s0Busy := none, s0Tries := 0, s0Stage := 0 })
      ∧ (j.s0Tries < s.cfg.crcRetries → ∃ t, exec (.cardTransferFailure 0 false x) s = .next t ∧ Drawn t
        ∧ t.jnl = { j with s0Tries := j.s0Tries + 1 }))
    ∧ (j.s0State = .ready → j.rpmbOpen = false → ∀ a,
      (j.s0Tries < s.cfg.crcRetries → Only0 (exec (.cardTransferFailure 0 a x) s) u { j with s0Tries := j.s0Tries + 1 })
      ∧ (s.cfg.crcRetries ≤ j.s0Tries → j.s0Stage = 0 → Only0 (exec (.cardTransferFailure 0 a x) s) u { j with s0Stage := 1 })
      ∧ (s.cfg.crcRetries ≤ j.s0Tries → j.s0Stage = 1 → ∃ t, exec (.cardTransferFailure 0 a x) s = .next t
        ∧ t = { u with jnl := { j with s0Stage := 2, s0State := .init, s0Slept := false, s0Init := some x, s0Cycle := true, s0Hs200 := false }
                       pins := clocked { s.pins with s0Pwr := false } t, cnt := t.cnt })
      ∧ (j.writing = false → j.s0Tries < s.cfg.crcRetries → Only0 (exec (.cardTimeout 0 ⟨a, x⟩) s) v { j with s0Tries := j.s0Tries + 1 }))
    ∧ (j.s0State = .ready → j.writing = true →
      Only0 (exec (.cardTimeout 0 ⟨true, x⟩) s) v
        { j with s0Busy := none, s0Tries := 0, s0Stage := 0, s0Cmds := ⟨false, 13, 0x00010000⟩ :: j.readBack }
      ∧ (s.dict.commit = none → ∃ t, exec (.cardTimeout 0 ⟨false, x⟩) s = .next t
        ∧ t.flt.causes = s.flt.causes ||| BitVec.ofNat 24 (2 ^ 16)
        ∧ t = { v with jnl := { j with s0State := .failed, s0Slept := false, s0Init := none, s0Cycle := false, s0Waits := false, state := .failed
                                       inFlight := none, s0Cmds := [⟨false, 13, 0x00010000⟩] }
                       pins := clocked s.pins t, flt := { v.flt with causes := t.flt.causes }, cnt := t.cnt }))
    ∧ (Quiet → j.s0Init = some x → d.init = none → s.dict.commit = none →
      ∃ t, step s = .next t ∧ t.vault = s.vault ∧ t.keys = s.keys ∧ t.rt = s.rt ∧ t.cfg = s.cfg ∧ t.card = s.card ∧ t.jobs = s.jobs
        ∧ (j.s0Cycle = true → t.pins.s0Pwr = true ∧ t.pins.s0RstN = true ∧ t.pins.s0Clk = true
            ∧ t.jnl = { j with s0State := .init, s0Slept := false, s0Cycle := false, s0Hs200 := false, winElapsed := t.jnl.winElapsed })
        ∧ (j.s0Cycle = false → t.jnl.s0Init = none ∧ t.pins.s0Pwr = s.pins.s0Pwr ∧ x.initCmds <+: t.jnl.s0Cmds
          ∧ (x.ok = true → t.jnl.s0State = .ready ∧ t.jnl.s0Cap = x.capacity ∧ t.jnl.s0Cid = padTo 16 x.cid
              ∧ (j.rpmb.key.isSome → t.jnl.state = j.state))
          ∧ (x.ok = false → t.jnl.s0State = .failed ∧ t.jnl.state = .failed
              ∧ t.flt.causes = s.flt.causes ||| BitVec.ofNat 24 (2 ^ 16))))

/-- R435, R87, R141, R400, R433: the release of DIE_RST_N begins the start-up, which idle steps run (the model's choice, log entry 3): its
first two steps, with a new epoch and hands, and slot 0 powered; once that is up, the journal's recovery and an image, or ROM mode; then jobs
are accepted. After the awake path the head page is checked once slot 0 is up. The rest of the firmware becomes resident, or its image
is rejected. What the retained section is compared with, and which values the choice of an image rests on, is log entry 32. -/
def Obligations.StartUp : Prop :=
  ∀ (s : State) (b : BootIn),
    let Begun (kept : Option Retained) (n : BootStep) (x : State) : Prop := x.pwr.starting = some (b, kept) ∧ x.pwr.bootStep = n ∧ x.pwr.boot = .held
    let Idle : Prop := s.pending = [] ∧ s.pwr.state = .run ∧ s.pwr.dieReset = false ∧ s.jnl.s0Init = none ∧ s.card.init = none
      ∧ ∀ n, (s.inst n).df.waits = false
    let Rom (t : State) : Prop := t.pwr.boot = .romMode ∧ t.pwr.starting = none ∧ t.pins.kbZeroise = true
    (s.pwr.dieReset = false ∨ s.pwr.state = .off → exec (.dieRstNRelease b) s = .next s)
    ∧ (s.pwr.dieReset = true → s.pwr.state ≠ .off → ∃ t, exec (.dieRstNRelease b) s = .next t
      ∧ t.pins = { s.pins with pmStateReq := 0b10#2, pmDownAck := false, strap := b.strap, pmRailsOk := true, pmClksOk := true }
      ∧ t.pwr.dieReset = false ∧ t.pwr.state = .run ∧ t.pwr.prep = none ∧ t.pwr.retained = none ∧ Begun s.pwr.retained .first t
      ∧ t.alive = false ∧ t = { s with pins := t.pins, pwr := t.pwr, life := { s.life with restart := false } })
    ∧ (∀ kept, Begun kept .first s → Idle → s.jnl.headDue = none → ∃ t, step s = .next t
      ∧ (b.source0 = true → b.source1 = true → t.rng.seeded = true)
      ∧ (s.life.fuse = s.life.read.fuse → s.life.fuse ≠ .blank → s.life.fuse ≠ .scrap → s.vault.map = true →
          s.vault.lcSeen = s.life.fuse.code →
          let e := (s.vault.bootEpoch + 1) % 2 ^ 64
          t.vault.bootEpoch = e ∧ ∀ n : Fin 128, (t.inst n).hand = handAt e)
      ∧ (b.tandemA = false → b.tandemB = false → t.pwr.boot = .dead ∧ t.pwr.starting = none)
      ∧ (b.tandemA = true ∨ b.tandemB = true →
        (∀ r, kept = some r → r.intact = true → Begun (some r) .accept t)
        ∧ ((∀ r, kept = some r → r.intact = false) → Begun none .load t
          ∧ (s.jnl.s0Slept = true → b.s0.awake = true → t.jnl.s0State = .ready ∧ t.jnl.s0Init = none)
          ∧ (s.jnl.s0Slept = false ∨ b.s0.awake = false → t.jnl.s0State = .init ∧ t.jnl.s0Init = some b.s0
              ∧ t.jnl.s0Cycle = s.jnl.s0Slept ∧ t.pins.s0Pwr = !s.jnl.s0Slept))))
    ∧ (Begun none .load s → Idle → s.jnl.headDue = none → ∃ t, step s = .next t
      ∧ (s.jnl.s0State = .failed → Rom t)
      ∧ (s.jnl.s0State ≠ .failed → b.copyCut = false → Rom t ∨ (Begun none .accept t ∧ ∃ k : Fin 2, t.bootFault k = none
          ∧ t.jnl.runImage = k.val ∧ (t.jnl.active = 0 ↔ k = 0) ∧ t.life.fwSvn = imageSvn (t.image k).bytes
          ∧ t.life.fwMeasure = digest 0x32 48 ((t.image k).bytes.take 1152))))
    ∧ (∀ kept, Begun kept .accept s → Idle → s.jnl.headDue = none → s.pins.pmDownReq = false → ∃ t, step s = .next t ∧ t.pwr.boot = .ready
      ∧ t.pwr.starting = none
      ∧ (s.pins.tbValid = false → bit t.flt.causes.toNat 18 = true)
      ∧ (kept = none → t.pins.kbZeroise = false ∧ t.jnl.trial = false ∧ t.life.fwMeasure = s.life.fwMeasure)
      ∧ (∀ r, kept = some r → t.life.fwMeasure = r.fwMeasure ∧ t.life.fwSvn = r.fwSvn ∧ t.jnl.runImage = r.image
          ∧ (s.slot0Wakes b.s0 = false → t.jnl.headDue = some r.pseq ∧ t.jnl.s0State = .init)))
    ∧ (∀ p, Idle → s.pwr.starting = none → s.alive = true → s.pins.pmDownReq = false → s.jnl.headDue = some p →
      (s.jnl.s0State = .failed → ∃ t, step s = .next t ∧ Rom t ∧ t.jobs = [] ∧ t.jnl.headDue = none)
      ∧ (s.jnl.s0State = .ready → s.retainedOk p = true → ∃ t, step s = .next t ∧ t.jnl.headDue = none ∧ t.pwr.boot = .ready
          ∧ t.jnl.state = (if s.budgetSpent then .budgetHeld else .ready)))
    ∧ (let k : Fin 2 := if s.jnl.runImage = 0 then 0 else 1
      let i : Image := s.jnl.images[k]
      s.alive = true → s.pwr.resident = false →
      ((laterSecs i.bytes).all (secDigestOk i.bytes) = true → ∃ t, exec (.firmwareResident true) s = .next t
        ∧ t = { s with pwr := { s.pwr with resident := true }, jnl := { s.jnl with s0Cmds := t.jnl.s0Cmds }, cnt := t.cnt })
      ∧ (∃ t, exec (.firmwareResident false) s = .next t ∧ t.pwr = { s.pwr with boot := .romMode } ∧ t.jobs = []
          ∧ t.jnl.images[k] = { i with state := .rejected } ∧ (∀ n, ∀ g ∈ s.sqsOf n, (t.sq g).state = .disabled)
          ∧ (s.sentry.late = [] → t.flt.causes = s.flt.causes ||| BitVec.ofNat 24 (2 ^ 17) ||| BitVec.ofNat 24 (2 ^ 21))
          ∧ t.pins.kbZeroise = true
          ∧ t.vault = s.vault ∧ t.keys = s.keys ∧ t.rt = s.rt ∧ t.cfg = s.cfg))

/-! ## The peloton -/

/-- R71, R481, R482, R485: links train; a frame for another member is acknowledged and goes on unchanged, one that its hop has harmed is not;
frames are sent again, acknowledged, and take the other side where a link fails; a member that answers no heartbeat becomes absent, and the
others are told. What a link error does beside that is log entry 33, the side a frame goes on by log entry 52. -/
def Obligations.CascadeLinks : Prop :=
  ∀ (s : State) (east : Bool) (m : Fin 4) (h : CasHead) (n : Nat), s.flt.fifo = [] →
    let d := side east
    let o := side !east
    let a := side h.east
    let OneBuffer (t : State) (l : List CasOut) : Prop := t.cas.out[d] = l ∧ t.cas.out[o] = s.cas.out[o]
      ∧ t = { s with cas := { s.cas with out := t.cas.out } }
    (s.alive = true → ∃ t, exec (.linkTrained east) s = .next t ∧ t.cas.trained[d] = true ∧ t.cas.trained[o] = s.cas.trained[o]
      ∧ t.pins.casBypass = (if s.pelOn ∧ s.cas.trained[o] then false else s.pins.casBypass)
      ∧ t = { s with cas := { s.cas with trained := t.cas.trained }, pins := { s.pins with casBypass := t.pins.casBypass } })
    ∧ (∀ c ∈ [Instr.enrol1 h, .heartbeat h, .heartbeatAck h, .capacity h n, .fwdCancel h n],
      (s.inRing = false ∨ h.crcOk = false → exec c s = .next s)
      ∧ (s.inRing = true → h.crcOk = true → h.dst ≠ s.cas.member → h.src ≠ s.cas.member → s.cas.trained[1 - a] = true →
        s.cas.out[1 - a].length < 64 → ∃ t, exec c s = .next t ∧ t.cas.acks[a] = s.cas.acks[a] + 1
          ∧ t.cas.out[1 - a] = s.cas.out[1 - a] ++ [⟨h.src, h.dst, h.ctr, .passed h.type h.wire, [], 0⟩]
          ∧ t.cas.out[a] = s.cas.out[a]
          ∧ t = { s with cas := { s.cas with out := t.cas.out, acks := t.cas.acks }, cnt := t.cnt, flt := s.flt.withLogs t.flt }))
    ∧ (∀ f rest, s.cas.out[d] = f :: rest →
      (f.tries < 15 → ∃ t, exec (.cascadeRetransmit east) s = .next t ∧ OneBuffer t ({ f with tries := f.tries + 1 } :: rest))
      ∧ (15 ≤ f.tries → exec (.cascadeRetransmit east) s = .next s)
      ∧ (∃ t, exec (.hopAcknowledgement east) s = .next t ∧ OneBuffer t rest))
    ∧ (s.cas.trained[d] = false → exec (.linkError east) s = .next s)
    ∧ (s.cas.trained[d] = true → s.forwardedBy d = [] → ∃ t, exec (.linkError east) s = .next t
      ∧ t.cas.trained[d] = false ∧ t.cas.out[d] = []
      ∧ (∀ k : Fin 4, t.cas.peers[k] =
          (if s.cas.peers[k].status = 1 then { s.cas.peers[k] with status := 0, step := 0, enrol := none } else s.cas.peers[k]))
      ∧ (s.cas.trained[o] = true → s.cas.out[o].length + s.cas.out[d].length ≤ 64 → t.cas.held = s.cas.held
        ∧ t.cas.out[o] = s.cas.out[o] ++ s.cas.out[d].map fun f => { f with tries := 0 })
      ∧ (s.cas.trained[o] = false → t.cas.out[o] = s.cas.out[o]
        ∧ t.cas.held = s.cas.held ++ s.cas.out[d].map fun f => { f with tries := 0 })
      ∧ t = { s with cnt := t.cnt, cas := t.cas })
    ∧ (s.pelOn = true → s.cas.role = .lead → s.cas.peers[m].status = 2 → ∃ t l, exec (.ackLoss m) s = .next t
      ∧ t.cas.peers[m] = Peer.reset ∧ (∀ k : Fin 4, k ≠ m → t.cas.peers[k] = { s.cas.peers[k] with sent := t.cas.peers[k].sent })
      ∧ t.cas.held = s.cas.held ++ l ∧ l.map (·.dst) = s.enrolled.filter (· != m)
      ∧ (∀ f ∈ l, ∃ ks, f.body = .pairKeys (s.enrolled.filter (· != m)) ks)
      ∧ t = { s with cas := t.cas, cnt := t.cnt, free := t.free, rng := t.rng, flt := s.flt.withLogs t.flt })

/-- R484 to R486: the lead claims the member whose turn it is; the follower answers a claim it accepts and refuses any other; each side
checks what the other attests, and keys or refuses it; pair keys come from the lead alone. The order of the contents, the turns and the parts of
a message that the spec leaves open are log entry 52, the refusals that it does not state log entry 33. -/
def Obligations.Enrolment : Prop :=
  ∀ (s : State) (h : CasHead) (e : EnrolIn), s.inRing = true → s.flt.fifo = [] → h.crcOk = true → h.dst = s.cas.member →
    let m := h.src
    let p := s.cas.peers[m]
    let u := s.heard h
    let Msg (type : Byte) : Prop := h.type = type ∧ h.ctr = 0 ∧ m ≠ s.cas.member
    let Framed (t : State) : Prop :=
      t = { s with cas := { s.cas with peers := t.cas.peers, held := t.cas.held, leader := t.cas.leader, role := t.cas.role
                                       acks := t.cas.acks, turn := t.cas.turn }
                   cnt := t.cnt, free := t.free, rng := t.rng, flt := s.flt.withLogs t.flt }
    let Others (t : State) : Prop := ∀ k : Fin 4, k ≠ m → t.cas.peers[k] = { s.cas.peers[k] with sent := t.cas.peers[k].sent }
    let Same (t : State) : Prop := Others t ∧ t.cas.leader = s.cas.leader ∧ t.cas.role = s.cas.role ∧ t.cas.turn = s.cas.turn
    let Keys (l : List CasOut) : Prop := ∀ f ∈ l, ∃ ms ks, f.body = .pairKeys ms ks
    let Refused (c : Host.Outcome State Fault Refusal) : Prop := ∃ t l, c = .next t ∧ Framed t ∧ Same t
      ∧ t.cas.peers[m] = { p with status := 3, step := 0, enrol := none }
      ∧ t.cas.held = s.cas.held ++ l ∧ Keys l ∧ (p.status ≠ 2 ∨ s.cas.role ≠ .lead → l = [])
    (s.mayEnrol m = true → let r := (s.drawn 64).1; let msg := slice r 0 32 ++ s.enrolPub ++ ephPub (slice r 32 32) ++ Config.leadClaim
      ∃ t, exec (.enrolmentStart m) s = .next t ∧ Framed t ∧ t.cas.turn = some m ∧ t.cas.leader = s.cas.leader ∧ t.cas.role = s.cas.role
        ∧ t.cas.held = s.cas.held ++ [⟨s.cas.member, m, 0, .enrol1 msg, [], 0⟩]
        ∧ ∀ k : Fin 4, let q := s.cas.peers[k]
          let q' := if q.status = 1 then { q with status := 0, step := 0, enrol := none } else q
          t.cas.peers[k] = if k = m then { q' with status := 1, step := 1, enrol := some ⟨slice r 32 32, [], [], msg, [], s.now⟩ } else q')
    ∧ (s.mayEnrol m = false → exec (.enrolmentStart m) s = .next s)
    ∧ (Msg 0x01#8 →
      (s.cas.role = .lead ∨ s.namedPeer m = false ∨ p.status = 3 ∨ (∃ l, s.cas.leader = some l ∧ l ≠ m) → Refused (exec (.enrol1 h) s))
      ∧ (s.cas.role ≠ .lead → s.namedPeer m = true → p.status ≠ 3 → (s.cas.leader = none ∨ s.cas.leader = some m) →
        let r := u.drawn 96
        let k := kemEncaps 0x51 (slice (enrolPubIn h.wire) 32 1184) (slice r.1 64 32)
        let reply := slice r.1 0 32 ++ s.enrolPub ++ ephPub (slice r.1 32 32) ++ k.1 ++ (r.2.attested (sha3 32 h.wire)).1 ++ Config.recoveryCert
        ∃ t, exec (.enrol1 h) s = .next t ∧ Framed t ∧ Same t
          ∧ t.cas.peers[m] = { p with
              status := 1, step := 2
              enrol := some ⟨slice r.1 32 32, enrolPubIn h.wire, ephIn h.wire, h.wire ++ reply, k.2, s.now⟩ }
          ∧ t.cas.held = s.cas.held ++ [⟨s.cas.member, m, 0, .enrol2 reply, [], 0⟩]))
    ∧ (Msg 0x02#8 → s.cas.role = .lead → p.step = 1 → ∀ x, p.enrol = some x →
      let ok := s.enrolOk m e (slice h.wire 2368 attestLen) (sha3 32 x.msgs) (enrolPubIn h.wire)
      (ok = false → Refused (exec (.enrol2 h e) s))
      ∧ (ok = true →
        let k := u.enrolSecrets { x with epk := ephIn h.wire } (encapsIn h.wire)
        let r := k.2.drawn 32
        let c := kemEncaps 0x51 (slice (enrolPubIn h.wire) 32 1184) r.1
        let reply := c.1 ++ (r.2.attested (sha3 32 (x.msgs ++ h.wire))).1 ++ Config.recoveryCert
        ∃ t l, exec (.enrol2 h e) s = .next t ∧ Framed t ∧ Same t
          ∧ t.cas.peers[m] = { p.keyed (pairKey k.1.1 c.2 k.1.2 (x.msgs ++ h.wire ++ reply)) with sent := t.cas.peers[m].sent }
          ∧ t.cas.held = s.cas.held ++ [⟨s.cas.member, m, 0, .enrol3 reply, [], 0⟩] ++ l ∧ Keys l ∧ l.map (·.dst) = t.enrolled))
    ∧ (Msg 0x03#8 → s.isFollower = true → p.step = 2 → ∀ x, p.enrol = some x →
      let ok := s.enrolOk m e (slice h.wire 1088 attestLen) (sha3 32 x.msgs) x.pub
      (ok = false ∨ (∃ l, s.cas.leader = some l ∧ l ≠ m) → Refused (exec (.enrol3 h e) s))
      ∧ (ok = true → (s.cas.leader = none ∨ s.cas.leader = some m) → let k := (u.enrolSecrets x (slice h.wire 0 1088)).1
        ∃ t, exec (.enrol3 h e) s = .next t ∧ Framed t ∧ Others t
          ∧ t.cas.peers[m] = p.keyed (pairKey x.ss k.1 k.2 (x.msgs ++ h.wire))
          ∧ t.cas.leader = some m ∧ t.cas.role = .follower ∧ t.cas.turn = s.cas.turn ∧ t.cas.held = s.cas.held))
    ∧ (∀ ms ks, s.frameOk h (.pairKeys ms ks) = true → h.ctr < 2 ^ 48 →
      ∃ t, exec (.pairKeys h ms ks) s = .next t ∧ t.cas.peers[m] = { p with got := h.ctr } ∧ t = { u with cas := { u.cas with peers := t.cas.peers } }
        ∧ ∀ k : Fin 4, k ≠ m → let q := s.cas.peers[k]
          (s.cas.leader ≠ some m ∨ s.cas.role = .cutOff ∨ k = s.cas.member → t.cas.peers[k] = q)
          ∧ (s.cas.leader = some m → s.cas.role ≠ .cutOff → k ≠ s.cas.member →
            (∀ key, ks.lookup k = some key → t.cas.peers[k] = q.keyed key)
            ∧ (ks.lookup k = none → k ∈ ms ∨ q.status = 3 → t.cas.peers[k] = q)
            ∧ (ks.lookup k = none → k ∉ ms → q.status ≠ 3 → t.cas.peers[k] = Peer.reset)))

/-- R320, R483, R487, R488: the lead sends heartbeats to those enrolled; a follower answers, and ends a cut-off; its lead lost, it
is cut off; capacity is advertised and noted; a frame whose tag or counter does not fit is dropped and counted. The cut-off's details and the
capacity at a full queue are log entry 33, the place of the count log entry 52. -/
def Obligations.Heartbeats : Prop :=
  ∀ (s : State) (h : CasHead) (n : Nat), s.pelOn = true → s.flt.fifo = [] →
    let u := s.exchange 1 .tick
    let v := s.heard h
    let p := s.cas.peers[h.src]
    let Comes : Prop := s.inRing = true ∧ h.crcOk = true ∧ h.dst = s.cas.member
    let PeersOnly (t : State) : Prop := (∀ k : Fin 4, k ≠ h.src → t.cas.peers[k] = s.cas.peers[k])
      ∧ t = { v with cas := { v.cas with peers := t.cas.peers, held := t.cas.held, role := t.cas.role } }
    (s.cas.role = .lead → (∀ m ∈ s.enrolled, s.cas.peers[m].sent + 1 < 2 ^ 48) → ∃ t, exec .heartbeatPeriod s = .next t
      ∧ t.cas.held = s.cas.held ++ s.enrolled.map (fun m => s.casOut m .heartbeat)
      ∧ (∀ m : Fin 4, t.cas.peers[m] = if m ∈ s.enrolled then { s.cas.peers[m] with sent := s.cas.peers[m].sent + 1 } else s.cas.peers[m])
      ∧ t = { u with cas := { s.cas with peers := t.cas.peers, held := t.cas.held } })
    ∧ (Comes → s.frameOk h .heartbeat = true → s.isFollower = true → s.cas.leader = some h.src → h.ctr < 2 ^ 48 →
        ∃ t, exec (.heartbeat h) s = .next t ∧ PeersOnly t ∧ t.cas.role = .follower
          ∧ t.cas.peers[h.src] = { p with got := h.ctr, sent := p.sent + 1 }
          ∧ t.cas.held = s.cas.held ++ [s.casOut h.src .heartbeatAck])
    ∧ (Comes → s.frameOk h .heartbeatAck = true → s.cas.role = .lead → h.ctr < 2 ^ 48 → ∃ t, exec (.heartbeatAck h) s = .next t ∧ PeersOnly t
        ∧ t.cas.held = s.cas.held ∧ t.cas.role = .lead ∧ t.cas.peers[h.src] = { p with got := h.ctr })
    ∧ (Comes → ∀ c ∈ [(Instr.heartbeat h, CasBody.heartbeat), (.heartbeatAck h, .heartbeatAck), (.capacity h n, .capacity n)],
        s.frameOk h c.2 = false → exec c.1 s = .next { v with cas := { v.cas with drops := s.cas.drops + 1 } })
    ∧ (s.cas.role = .follower → ∃ t, exec .pelLeadLost s = .next t ∧ t.cas = { s.cas with role := .cutOff }
        ∧ t.flt.causes = s.flt.causes ||| BitVec.ofNat 24 (2 ^ 20)
        ∧ (t.jnl.events.getLast?).map (fun e => (e.code, e.detail)) = some (0x0052, padTo 8 (toLe 1 (leadByte s.cas.leader)))
        ∧ t = { s with cas := t.cas, jnl := t.jnl, flt := { s.flt.withLogs t.flt with causes := t.flt.causes } })
    ∧ (s.cas.role = .follower → ∃ t, exec .capacityAdvert s = .next t
        ∧ t.cas.held = s.cas.held ++ s.enrolled.map (fun m => s.casOut m (.capacity s.fwdRoom))
        ∧ t = { u with cas := { s.cas with peers := t.cas.peers, held := t.cas.held } })
    ∧ (Comes → s.frameOk h (.capacity n) = true → s.cas.role ≠ .cutOff → h.ctr < 2 ^ 48 → s.NoneWait → ∃ t, exec (.capacity h n) s = .next t
        ∧ PeersOnly t ∧ t.cas.held = s.cas.held ∧ t.cas.role = s.cas.role ∧ t.cas.peers[h.src] = { p with got := h.ctr, free := n })

/-- R320 to R322, R468: a forwarded job is queued or runs here, or is answered with ENGINE_FAULT in a preparation or where
there is no room; a result ends the job that waits for it; a cancelled job is gone; after 2 ms the job runs here. The answers where there is no
room or none is a follower are log entry 33. -/
def Obligations.Forwarding : Prop :=
  ∀ (s : State) (h : CasHead) (id : Nat), s.flt.fifo = [] →
    let p := s.cas.peers[h.src]
    let u := s.heard h
    let got : Cas := { u.cas with peers := s.cas.peers.set h.src { p with got := h.ctr } }
    let wake : Pwr := { s.pwr with coastCause := s.pwr.coastCause || s.pwr.state == .coast }
    let Comes (b : CasBody) : Prop := s.frameOk h b = true
    (s.inRing = true → h.crcOk = true → h.dst = s.cas.member → s.cas.role ≠ .cutOff → h.ctr < 2 ^ 48 → s.NoneWait →
      (∀ w, Comes (.fwdJob id w) → s.pwr.prep ≠ none ∨ s.fwdRoom = 0 → exec (.fwdJob h id w) s = .next { u with
          pwr := wake, cas := { u.cas with peers := s.cas.peers.set h.src { p with got := h.ctr, sent := p.sent + 1 }
                                           held := s.cas.held ++ [s.casOut h.src (.fwdResult id ⟨.engineFault, 0, []⟩)] } })
      ∧ (∀ w, Comes (.fwdJob id w) → s.cas.role = .follower → s.pwr.prep = none → s.fwdRoom ≠ 0 → s.job s.disp.nextJob = none →
          ∃ t, exec (.fwdJob h id w) s = .next t ∧ t.disp = { s.disp with nextJob := s.disp.nextJob + 1 }
            ∧ (∃ f ∈ t.cas.fwdIn ++ t.cas.fwdRun, f.src = h.src ∧ f.job = id ∧ f.work = w ∧ f.id = s.disp.nextJob)
            ∧ (∀ f ∈ s.cas.fwdRun, f ∈ t.cas.fwdRun) ∧ t.cas.held = s.cas.held
            ∧ t = { u with pwr := wake, disp := t.disp, cnt := t.cnt, units := { s.units with eng := t.units.eng }
                           cas := { got with fwdIn := t.cas.fwdIn, fwdRun := t.cas.fwdRun } })
      ∧ (∀ r, Comes (.fwdResult id r) → s.forwarded h.src id = none → exec (.fwdResult h id r) s = .next { u with cas := got })
      ∧ (∀ r j, Comes (.fwdResult id r) → s.forwarded h.src id = some j → r.status ≠ .engineFault → r.out = [] → s.superseded j = false →
          ∃ t, exec (.fwdResult h id r) s = .next t ∧ s.Ended t j r.status r.result ∧ t.vault = s.vault ∧ t.rt = s.rt
            ∧ t.cfg = s.cfg ∧ s.NothingStored t)
      ∧ (Comes (.fwdCancel id) → ∃ t, exec (.fwdCancel h id) s = .next t ∧ (∀ f ∈ t.cas.fwdRun, ¬ (f.src = h.src ∧ f.job = id)) ∧ t.cas.fwdIn = []
          ∧ (∀ f ∈ s.cas.fwdRun, ¬ (f.src = h.src ∧ f.job = id) → (∀ g ∈ s.cas.fwdRun, g.id = f.id → g = f) → f ∈ t.cas.fwdRun)
          ∧ t = { u with cas := { got with fwdRun := t.cas.fwdRun }, units := { s.units with eng := t.units.eng } }))
    ∧ (∀ j, s.job id = some j → j.phase = .forwarded → j.engine = none → j.tc = false →
      (∀ e, s.engineFor j .lf = some e → ∃ t, exec (.fwdTimeout id) s = .next t
        ∧ t.job id = some { j with phase := .data, engine := some e.val, pages := j.pagesNeeded }
        ∧ t.units.eng[e].contexts = [id]
        ∧ t = { s with jobs := t.jobs, cnt := t.cnt, units := { s.units with eng := t.units.eng }
                       keys := { s.keys with slots := t.keys.slots }, sentry := t.sentry })
      ∧ (s.engineFor j .lf = none → s.candidates j .lf ≠ [] → j.member4 ≠ none → ∃ t, exec (.fwdTimeout id) s = .next t
        ∧ t.job id = some { j with phase := .context } ∧ t = { s with jobs := t.jobs }))
    ∧ (s.job id = none → exec (.fwdTimeout id) s = .next s)

/-- R154 to R156, R490: the destination installs moved slots held, or refuses; the source empties its own and commits; the
commit releases the held slots; the confirmation, a refusal and the time-outs end the move with their results. The two messages that SLOT_CONFIRM
answers, and what is gone after a time-out, are log entry 30. -/
def Obligations.SlotMoves : Prop :=
  ∀ (s : State) (h : CasHead) (n src : Fin 128), s.flt.fifo = [] →
    let i := s.inst n
    let wake : Pwr := { s.pwr with coastCause := s.pwr.coastCause || s.pwr.state == .coast }
    let Ends (c : Host.Outcome State Fault Refusal) (r : Nat) : Prop := ∃ t, c = .next t ∧ t.inst n = { i with pelResult := r, pelPeer := none }
      ∧ s.OtherInsts t n ∧ t.vault = s.vault ∧ t.keys = s.keys ∧ t.rt = s.rt ∧ t.cfg = s.cfg ∧ t.fab = s.fab
    let Sends (t : State) (b : CasBody) : Prop := t.cas.held = s.cas.held ++ [s.casOut h.src b] ∧ t.pwr = wake
      ∧ t.rt = s.rt ∧ t.cfg = s.cfg ∧ t.fab = s.fab
    (s.inRing = true → h.crcOk = true → h.dst = s.cas.member → s.cas.role ≠ .cutOff → h.ctr < 2 ^ 48 →
      (∀ base quota cs l, s.frameOk h (.slotInstall src n base quota cs l) = true → s.moveFits h.src n base quota = false →
        ∃ t, exec (.slotInstall h src n base quota cs l) s = .next t
          ∧ t.inst n = { i with pelResult := 3 } ∧ s.OtherInsts t n ∧ Sends t (.slotRefuse src) ∧ t.keys = s.keys ∧ t.vault = s.vault)
      ∧ (∀ base quota c v x, s.frameOk h (.slotInstall src n base quota [(c, v)] [x]) = true → s.moveFits h.src n base quota = true →
        ∃ t, exec (.slotInstall h src n base quota [(c, v)] [x]) s = .next t ∧ Sends t (.slotConfirm src)
          ∧ (t.inst n).pelResult = 1 ∧ (t.inst n).pelPeer = some ⟨h.src, src, .held⟩
          ∧ (s.vault.counter c < v → v < 2 ^ 64 → 1 ≤ c → c ≤ 64 → t.vault.counter c = v)
          ∧ (v ≤ s.vault.counter c → t.vault = s.vault)
          ∧ ∃ y, (x.slot, y) ∈ t.keys.slots ∧ y.owner = n ∧ y.hand = i.hand ∧ y.usage = x.usage ∧ y.ktype = x.ktype
            ∧ y.pinned = true ∧ y.movedIn = true ∧ y.run = x.run ∧ y.limit = x.limit ∧ y.used = x.used ∧ y.root = x.root)
      ∧ (∀ q, s.frameOk h (.slotCommit n) = true → s.openMove n h.src .held = some q →
        ∃ t, exec (.slotCommit h n) s = .next t ∧ Sends t (.slotConfirm q.inst)
          ∧ t.inst n = { i with pelResult := 2, pelPeer := none } ∧ s.OtherInsts t n ∧ t.vault = s.vault
          ∧ t.keys.slots = s.keys.slots.map fun y => if y.2.owner = n then (y.1, { y.2 with movedIn := false }) else y)
      ∧ (∀ q, s.frameOk h (.slotRefuse n) = true → s.openMove n h.src .sent = some q → Ends (exec (.slotRefuse h n) s) 3)
      ∧ (s.frameOk h (.slotConfirm n) = true →
        (∀ q, s.openMove n h.src .sent = some q → ∃ t, exec (.slotConfirm h n) s = .next t ∧ Sends t (.slotCommit q.inst) ∧ t.vault = s.vault
          ∧ (t.inst n).pelPeer = some { q with at_ := .committed } ∧ (t.inst n).pelResult = i.pelResult
          ∧ (∀ y ∈ t.keys.slots, y ∈ s.keys.slots ∧ ¬ (y.2.owner = n ∧ y.2.pinned = true)))
        ∧ (∀ q, s.openMove n h.src .committed = some q → Ends (exec (.slotConfirm h n) s) 2)))
    ∧ (s.moveIs n [.held] = true → ∃ t, exec (.slotMoveTimeout n) s = .next t ∧ (t.inst n).pelResult = 5
      ∧ (t.inst n).pelPeer = none ∧ (∀ y ∈ t.keys.slots, y ∈ s.keys.slots ∧ ¬ (y.2.owner = n ∧ y.2.movedIn = true))
      ∧ t.vault = s.vault ∧ t.rt = s.rt ∧ t.cfg = s.cfg ∧ t.cas = s.cas ∧ t.fab = s.fab)
    ∧ (s.moveIs n [.held] = false → exec (.slotMoveTimeout n) s = .next s)
    ∧ (s.moveIs n [.sent, .committed] = true → ∃ t, exec (.confirmTimeout n) s = .next t ∧ (t.inst n).pelResult = 4
      ∧ (t.inst n).pelPeer = none ∧ (∀ y ∈ t.keys.slots, y ∈ s.keys.slots ∧ ¬ (y.2.owner = n ∧ y.2.pinned = true))
      ∧ t.vault = s.vault ∧ t.rt = s.rt ∧ t.cfg = s.cfg ∧ t.cas = s.cas ∧ t.fab = s.fab)
    ∧ (s.moveIs n [.sent, .committed] = false → exec (.confirmTimeout n) s = .next s)

/-- R437: a segment write while JNL_STATE is not READY or COMPACTING ends with PERSIST_FAIL, and nothing is stored. -/
def Obligations.SegmentsNeedJournal : Prop :=
  ∀ (s : State) (w : Who) (i sub : Nat) (first last : Bool) (arg : Nat) (data : Bytes), s.Idle w →
    Obj.resolve i sub = .ok .updSegment → s.writeDenied w .updSegment = none → data.length ≤ roomOf w →
    s.jnl.state ≠ .ready → s.jnl.state ≠ .compacting →
    (first = true → arg ≤ 65544 ∧ ∀ u, s.jnl.updOpen = some u → u.1 = w) →
    (first = false → ∃ u, s.jnl.updOpen = some u ∧ u.1 = w ∧ atOffset w arg u.2.2.length = true) →
    let Fails (c : Host.Outcome State Fault Refusal) : Prop := s.Answers w c .persistFail fun t => t.jnl.staging = s.jnl.staging ∧ t.jnl.updMap = s.jnl.updMap
        ∧ t.jnl.updState = s.jnl.updState ∧ t.jnl.updOpen = none ∧ t.jnl.groups = s.jnl.groups ∧ t.vault = s.vault
        ∧ t.cfg = s.cfg
    Fails (exec (.segWrite w i sub first last arg data) s) ∧ Fails (exec (.updSegment w first last arg data) s)
end

