-- ==== Sys2Proof/Laws/State.lean ====
section
/-! SUPPORT. Each field of the state under each update, so that no proof unfolds an update. -/

namespace Sys2Proof.Machine

variable (s : State)

@[simp] theorem State.updPins_pending (f : Pins → Pins) : (s.updPins f).pending = s.pending := rfl
@[simp] theorem State.updPins_now (f : Pins → Pins) : (s.updPins f).now = s.now := rfl
@[simp] theorem State.updPins_free (f : Pins → Pins) : (s.updPins f).free = s.free := rfl
@[simp] theorem State.updPins_pins (f : Pins → Pins) : (s.updPins f).pins = f s.pins := rfl
@[simp] theorem State.updPins_pwr (f : Pins → Pins) : (s.updPins f).pwr = s.pwr := rfl
@[simp] theorem State.updPins_sentry (f : Pins → Pins) : (s.updPins f).sentry = s.sentry := rfl
@[simp] theorem State.updPins_tamper (f : Pins → Pins) : (s.updPins f).tamper = s.tamper := rfl
@[simp] theorem State.updPins_vault (f : Pins → Pins) : (s.updPins f).vault = s.vault := rfl
@[simp] theorem State.updPins_life (f : Pins → Pins) : (s.updPins f).life = s.life := rfl
@[simp] theorem State.updPins_keys (f : Pins → Pins) : (s.updPins f).keys = s.keys := rfl
@[simp] theorem State.updPins_insts (f : Pins → Pins) : (s.updPins f).insts = s.insts := rfl
@[simp] theorem State.updPins_sqs (f : Pins → Pins) : (s.updPins f).sqs = s.sqs := rfl
@[simp] theorem State.updPins_cqs (f : Pins → Pins) : (s.updPins f).cqs = s.cqs := rfl
@[simp] theorem State.updPins_jobs (f : Pins → Pins) : (s.updPins f).jobs = s.jobs := rfl
@[simp] theorem State.updPins_units (f : Pins → Pins) : (s.updPins f).units = s.units := rfl
@[simp] theorem State.updPins_fab (f : Pins → Pins) : (s.updPins f).fab = s.fab := rfl
@[simp] theorem State.updPins_irq (f : Pins → Pins) : (s.updPins f).irq = s.irq := rfl
@[simp] theorem State.updPins_rt (f : Pins → Pins) : (s.updPins f).rt = s.rt := rfl
@[simp] theorem State.updPins_cnt (f : Pins → Pins) : (s.updPins f).cnt = s.cnt := rfl
@[simp] theorem State.updPins_dict (f : Pins → Pins) : (s.updPins f).dict = s.dict := rfl
@[simp] theorem State.updPins_cfg (f : Pins → Pins) : (s.updPins f).cfg = s.cfg := rfl
@[simp] theorem State.updPins_jnl (f : Pins → Pins) : (s.updPins f).jnl = s.jnl := rfl
@[simp] theorem State.updPins_card (f : Pins → Pins) : (s.updPins f).card = s.card := rfl
@[simp] theorem State.updPins_flt (f : Pins → Pins) : (s.updPins f).flt = s.flt := rfl
@[simp] theorem State.updPins_rng (f : Pins → Pins) : (s.updPins f).rng = s.rng := rfl
@[simp] theorem State.updPins_edge (f : Pins → Pins) : (s.updPins f).edge = s.edge := rfl
@[simp] theorem State.updPins_eoa (f : Pins → Pins) : (s.updPins f).eoa = s.eoa := rfl
@[simp] theorem State.updPins_cas (f : Pins → Pins) : (s.updPins f).cas = s.cas := rfl
@[simp] theorem State.updPins_disp (f : Pins → Pins) : (s.updPins f).disp = s.disp := rfl
@[simp] theorem State.updPins_inst (f : Pins → Pins) (n : Fin 128) : (s.updPins f).inst n = s.inst n := rfl
@[simp] theorem State.updPins_sq (f : Pins → Pins) (g : Fin 512) : (s.updPins f).sq g = s.sq g := rfl
@[simp] theorem State.updPins_cq (f : Pins → Pins) (q : Fin 256) : (s.updPins f).cq q = s.cq q := rfl

@[simp] theorem State.updPwr_pending (f : Pwr → Pwr) : (s.updPwr f).pending = s.pending := rfl
@[simp] theorem State.updPwr_now (f : Pwr → Pwr) : (s.updPwr f).now = s.now := rfl
@[simp] theorem State.updPwr_free (f : Pwr → Pwr) : (s.updPwr f).free = s.free := rfl
@[simp] theorem State.updPwr_pins (f : Pwr → Pwr) : (s.updPwr f).pins = s.pins := rfl
@[simp] theorem State.updPwr_pwr (f : Pwr → Pwr) : (s.updPwr f).pwr = f s.pwr := rfl
@[simp] theorem State.updPwr_sentry (f : Pwr → Pwr) : (s.updPwr f).sentry = s.sentry := rfl
@[simp] theorem State.updPwr_tamper (f : Pwr → Pwr) : (s.updPwr f).tamper = s.tamper := rfl
@[simp] theorem State.updPwr_vault (f : Pwr → Pwr) : (s.updPwr f).vault = s.vault := rfl
@[simp] theorem State.updPwr_life (f : Pwr → Pwr) : (s.updPwr f).life = s.life := rfl
@[simp] theorem State.updPwr_keys (f : Pwr → Pwr) : (s.updPwr f).keys = s.keys := rfl
@[simp] theorem State.updPwr_insts (f : Pwr → Pwr) : (s.updPwr f).insts = s.insts := rfl
@[simp] theorem State.updPwr_sqs (f : Pwr → Pwr) : (s.updPwr f).sqs = s.sqs := rfl
@[simp] theorem State.updPwr_cqs (f : Pwr → Pwr) : (s.updPwr f).cqs = s.cqs := rfl
@[simp] theorem State.updPwr_jobs (f : Pwr → Pwr) : (s.updPwr f).jobs = s.jobs := rfl
@[simp] theorem State.updPwr_units (f : Pwr → Pwr) : (s.updPwr f).units = s.units := rfl
@[simp] theorem State.updPwr_fab (f : Pwr → Pwr) : (s.updPwr f).fab = s.fab := rfl
@[simp] theorem State.updPwr_irq (f : Pwr → Pwr) : (s.updPwr f).irq = s.irq := rfl
@[simp] theorem State.updPwr_rt (f : Pwr → Pwr) : (s.updPwr f).rt = s.rt := rfl
@[simp] theorem State.updPwr_cnt (f : Pwr → Pwr) : (s.updPwr f).cnt = s.cnt := rfl
@[simp] theorem State.updPwr_dict (f : Pwr → Pwr) : (s.updPwr f).dict = s.dict := rfl
@[simp] theorem State.updPwr_cfg (f : Pwr → Pwr) : (s.updPwr f).cfg = s.cfg := rfl
@[simp] theorem State.updPwr_jnl (f : Pwr → Pwr) : (s.updPwr f).jnl = s.jnl := rfl
@[simp] theorem State.updPwr_card (f : Pwr → Pwr) : (s.updPwr f).card = s.card := rfl
@[simp] theorem State.updPwr_flt (f : Pwr → Pwr) : (s.updPwr f).flt = s.flt := rfl
@[simp] theorem State.updPwr_rng (f : Pwr → Pwr) : (s.updPwr f).rng = s.rng := rfl
@[simp] theorem State.updPwr_edge (f : Pwr → Pwr) : (s.updPwr f).edge = s.edge := rfl
@[simp] theorem State.updPwr_eoa (f : Pwr → Pwr) : (s.updPwr f).eoa = s.eoa := rfl
@[simp] theorem State.updPwr_cas (f : Pwr → Pwr) : (s.updPwr f).cas = s.cas := rfl
@[simp] theorem State.updPwr_disp (f : Pwr → Pwr) : (s.updPwr f).disp = s.disp := rfl
@[simp] theorem State.updPwr_inst (f : Pwr → Pwr) (n : Fin 128) : (s.updPwr f).inst n = s.inst n := rfl
@[simp] theorem State.updPwr_sq (f : Pwr → Pwr) (g : Fin 512) : (s.updPwr f).sq g = s.sq g := rfl
@[simp] theorem State.updPwr_cq (f : Pwr → Pwr) (q : Fin 256) : (s.updPwr f).cq q = s.cq q := rfl

@[simp] theorem State.updSentry_pending (f : Sentry → Sentry) : (s.updSentry f).pending = s.pending := rfl
@[simp] theorem State.updSentry_now (f : Sentry → Sentry) : (s.updSentry f).now = s.now := rfl
@[simp] theorem State.updSentry_free (f : Sentry → Sentry) : (s.updSentry f).free = s.free := rfl
@[simp] theorem State.updSentry_pins (f : Sentry → Sentry) : (s.updSentry f).pins = s.pins := rfl
@[simp] theorem State.updSentry_pwr (f : Sentry → Sentry) : (s.updSentry f).pwr = s.pwr := rfl
@[simp] theorem State.updSentry_sentry (f : Sentry → Sentry) : (s.updSentry f).sentry = f s.sentry := rfl
@[simp] theorem State.updSentry_tamper (f : Sentry → Sentry) : (s.updSentry f).tamper = s.tamper := rfl
@[simp] theorem State.updSentry_vault (f : Sentry → Sentry) : (s.updSentry f).vault = s.vault := rfl
@[simp] theorem State.updSentry_life (f : Sentry → Sentry) : (s.updSentry f).life = s.life := rfl
@[simp] theorem State.updSentry_keys (f : Sentry → Sentry) : (s.updSentry f).keys = s.keys := rfl
@[simp] theorem State.updSentry_insts (f : Sentry → Sentry) : (s.updSentry f).insts = s.insts := rfl
@[simp] theorem State.updSentry_sqs (f : Sentry → Sentry) : (s.updSentry f).sqs = s.sqs := rfl
@[simp] theorem State.updSentry_cqs (f : Sentry → Sentry) : (s.updSentry f).cqs = s.cqs := rfl
@[simp] theorem State.updSentry_jobs (f : Sentry → Sentry) : (s.updSentry f).jobs = s.jobs := rfl
@[simp] theorem State.updSentry_units (f : Sentry → Sentry) : (s.updSentry f).units = s.units := rfl
@[simp] theorem State.updSentry_fab (f : Sentry → Sentry) : (s.updSentry f).fab = s.fab := rfl
@[simp] theorem State.updSentry_irq (f : Sentry → Sentry) : (s.updSentry f).irq = s.irq := rfl
@[simp] theorem State.updSentry_rt (f : Sentry → Sentry) : (s.updSentry f).rt = s.rt := rfl
@[simp] theorem State.updSentry_cnt (f : Sentry → Sentry) : (s.updSentry f).cnt = s.cnt := rfl
@[simp] theorem State.updSentry_dict (f : Sentry → Sentry) : (s.updSentry f).dict = s.dict := rfl
@[simp] theorem State.updSentry_cfg (f : Sentry → Sentry) : (s.updSentry f).cfg = s.cfg := rfl
@[simp] theorem State.updSentry_jnl (f : Sentry → Sentry) : (s.updSentry f).jnl = s.jnl := rfl
@[simp] theorem State.updSentry_card (f : Sentry → Sentry) : (s.updSentry f).card = s.card := rfl
@[simp] theorem State.updSentry_flt (f : Sentry → Sentry) : (s.updSentry f).flt = s.flt := rfl
@[simp] theorem State.updSentry_rng (f : Sentry → Sentry) : (s.updSentry f).rng = s.rng := rfl
@[simp] theorem State.updSentry_edge (f : Sentry → Sentry) : (s.updSentry f).edge = s.edge := rfl
@[simp] theorem State.updSentry_eoa (f : Sentry → Sentry) : (s.updSentry f).eoa = s.eoa := rfl
@[simp] theorem State.updSentry_cas (f : Sentry → Sentry) : (s.updSentry f).cas = s.cas := rfl
@[simp] theorem State.updSentry_disp (f : Sentry → Sentry) : (s.updSentry f).disp = s.disp := rfl
@[simp] theorem State.updSentry_inst (f : Sentry → Sentry) (n : Fin 128) : (s.updSentry f).inst n = s.inst n := rfl
@[simp] theorem State.updSentry_sq (f : Sentry → Sentry) (g : Fin 512) : (s.updSentry f).sq g = s.sq g := rfl
@[simp] theorem State.updSentry_cq (f : Sentry → Sentry) (q : Fin 256) : (s.updSentry f).cq q = s.cq q := rfl

@[simp] theorem State.updTamper_pending (f : Tamper → Tamper) : (s.updTamper f).pending = s.pending := rfl
@[simp] theorem State.updTamper_now (f : Tamper → Tamper) : (s.updTamper f).now = s.now := rfl
@[simp] theorem State.updTamper_free (f : Tamper → Tamper) : (s.updTamper f).free = s.free := rfl
@[simp] theorem State.updTamper_pins (f : Tamper → Tamper) : (s.updTamper f).pins = s.pins := rfl
@[simp] theorem State.updTamper_pwr (f : Tamper → Tamper) : (s.updTamper f).pwr = s.pwr := rfl
@[simp] theorem State.updTamper_sentry (f : Tamper → Tamper) : (s.updTamper f).sentry = s.sentry := rfl
@[simp] theorem State.updTamper_tamper (f : Tamper → Tamper) : (s.updTamper f).tamper = f s.tamper := rfl
@[simp] theorem State.updTamper_vault (f : Tamper → Tamper) : (s.updTamper f).vault = s.vault := rfl
@[simp] theorem State.updTamper_life (f : Tamper → Tamper) : (s.updTamper f).life = s.life := rfl
@[simp] theorem State.updTamper_keys (f : Tamper → Tamper) : (s.updTamper f).keys = s.keys := rfl
@[simp] theorem State.updTamper_insts (f : Tamper → Tamper) : (s.updTamper f).insts = s.insts := rfl
@[simp] theorem State.updTamper_sqs (f : Tamper → Tamper) : (s.updTamper f).sqs = s.sqs := rfl
@[simp] theorem State.updTamper_cqs (f : Tamper → Tamper) : (s.updTamper f).cqs = s.cqs := rfl
@[simp] theorem State.updTamper_jobs (f : Tamper → Tamper) : (s.updTamper f).jobs = s.jobs := rfl
@[simp] theorem State.updTamper_units (f : Tamper → Tamper) : (s.updTamper f).units = s.units := rfl
@[simp] theorem State.updTamper_fab (f : Tamper → Tamper) : (s.updTamper f).fab = s.fab := rfl
@[simp] theorem State.updTamper_irq (f : Tamper → Tamper) : (s.updTamper f).irq = s.irq := rfl
@[simp] theorem State.updTamper_rt (f : Tamper → Tamper) : (s.updTamper f).rt = s.rt := rfl
@[simp] theorem State.updTamper_cnt (f : Tamper → Tamper) : (s.updTamper f).cnt = s.cnt := rfl
@[simp] theorem State.updTamper_dict (f : Tamper → Tamper) : (s.updTamper f).dict = s.dict := rfl
@[simp] theorem State.updTamper_cfg (f : Tamper → Tamper) : (s.updTamper f).cfg = s.cfg := rfl
@[simp] theorem State.updTamper_jnl (f : Tamper → Tamper) : (s.updTamper f).jnl = s.jnl := rfl
@[simp] theorem State.updTamper_card (f : Tamper → Tamper) : (s.updTamper f).card = s.card := rfl
@[simp] theorem State.updTamper_flt (f : Tamper → Tamper) : (s.updTamper f).flt = s.flt := rfl
@[simp] theorem State.updTamper_rng (f : Tamper → Tamper) : (s.updTamper f).rng = s.rng := rfl
@[simp] theorem State.updTamper_edge (f : Tamper → Tamper) : (s.updTamper f).edge = s.edge := rfl
@[simp] theorem State.updTamper_eoa (f : Tamper → Tamper) : (s.updTamper f).eoa = s.eoa := rfl
@[simp] theorem State.updTamper_cas (f : Tamper → Tamper) : (s.updTamper f).cas = s.cas := rfl
@[simp] theorem State.updTamper_disp (f : Tamper → Tamper) : (s.updTamper f).disp = s.disp := rfl
@[simp] theorem State.updTamper_inst (f : Tamper → Tamper) (n : Fin 128) : (s.updTamper f).inst n = s.inst n := rfl
@[simp] theorem State.updTamper_sq (f : Tamper → Tamper) (g : Fin 512) : (s.updTamper f).sq g = s.sq g := rfl
@[simp] theorem State.updTamper_cq (f : Tamper → Tamper) (q : Fin 256) : (s.updTamper f).cq q = s.cq q := rfl

@[simp] theorem State.updVault_pending (f : Vault → Vault) : (s.updVault f).pending = s.pending := rfl
@[simp] theorem State.updVault_now (f : Vault → Vault) : (s.updVault f).now = s.now := rfl
@[simp] theorem State.updVault_free (f : Vault → Vault) : (s.updVault f).free = s.free := rfl
@[simp] theorem State.updVault_pins (f : Vault → Vault) : (s.updVault f).pins = s.pins := rfl
@[simp] theorem State.updVault_pwr (f : Vault → Vault) : (s.updVault f).pwr = s.pwr := rfl
@[simp] theorem State.updVault_sentry (f : Vault → Vault) : (s.updVault f).sentry = s.sentry := rfl
@[simp] theorem State.updVault_tamper (f : Vault → Vault) : (s.updVault f).tamper = s.tamper := rfl
@[simp] theorem State.updVault_vault (f : Vault → Vault) : (s.updVault f).vault = f s.vault := rfl
@[simp] theorem State.updVault_life (f : Vault → Vault) : (s.updVault f).life = s.life := rfl
@[simp] theorem State.updVault_keys (f : Vault → Vault) : (s.updVault f).keys = s.keys := rfl
@[simp] theorem State.updVault_insts (f : Vault → Vault) : (s.updVault f).insts = s.insts := rfl
@[simp] theorem State.updVault_sqs (f : Vault → Vault) : (s.updVault f).sqs = s.sqs := rfl
@[simp] theorem State.updVault_cqs (f : Vault → Vault) : (s.updVault f).cqs = s.cqs := rfl
@[simp] theorem State.updVault_jobs (f : Vault → Vault) : (s.updVault f).jobs = s.jobs := rfl
@[simp] theorem State.updVault_units (f : Vault → Vault) : (s.updVault f).units = s.units := rfl
@[simp] theorem State.updVault_fab (f : Vault → Vault) : (s.updVault f).fab = s.fab := rfl
@[simp] theorem State.updVault_irq (f : Vault → Vault) : (s.updVault f).irq = s.irq := rfl
@[simp] theorem State.updVault_rt (f : Vault → Vault) : (s.updVault f).rt = s.rt := rfl
@[simp] theorem State.updVault_cnt (f : Vault → Vault) : (s.updVault f).cnt = s.cnt := rfl
@[simp] theorem State.updVault_dict (f : Vault → Vault) : (s.updVault f).dict = s.dict := rfl
@[simp] theorem State.updVault_cfg (f : Vault → Vault) : (s.updVault f).cfg = s.cfg := rfl
@[simp] theorem State.updVault_jnl (f : Vault → Vault) : (s.updVault f).jnl = s.jnl := rfl
@[simp] theorem State.updVault_card (f : Vault → Vault) : (s.updVault f).card = s.card := rfl
@[simp] theorem State.updVault_flt (f : Vault → Vault) : (s.updVault f).flt = s.flt := rfl
@[simp] theorem State.updVault_rng (f : Vault → Vault) : (s.updVault f).rng = s.rng := rfl
@[simp] theorem State.updVault_edge (f : Vault → Vault) : (s.updVault f).edge = s.edge := rfl
@[simp] theorem State.updVault_eoa (f : Vault → Vault) : (s.updVault f).eoa = s.eoa := rfl
@[simp] theorem State.updVault_cas (f : Vault → Vault) : (s.updVault f).cas = s.cas := rfl
@[simp] theorem State.updVault_disp (f : Vault → Vault) : (s.updVault f).disp = s.disp := rfl
@[simp] theorem State.updVault_inst (f : Vault → Vault) (n : Fin 128) : (s.updVault f).inst n = s.inst n := rfl
@[simp] theorem State.updVault_sq (f : Vault → Vault) (g : Fin 512) : (s.updVault f).sq g = s.sq g := rfl
@[simp] theorem State.updVault_cq (f : Vault → Vault) (q : Fin 256) : (s.updVault f).cq q = s.cq q := rfl

@[simp] theorem State.updLife_pending (f : Life → Life) : (s.updLife f).pending = s.pending := rfl
@[simp] theorem State.updLife_now (f : Life → Life) : (s.updLife f).now = s.now := rfl
@[simp] theorem State.updLife_free (f : Life → Life) : (s.updLife f).free = s.free := rfl
@[simp] theorem State.updLife_pins (f : Life → Life) : (s.updLife f).pins = s.pins := rfl
@[simp] theorem State.updLife_pwr (f : Life → Life) : (s.updLife f).pwr = s.pwr := rfl
@[simp] theorem State.updLife_sentry (f : Life → Life) : (s.updLife f).sentry = s.sentry := rfl
@[simp] theorem State.updLife_tamper (f : Life → Life) : (s.updLife f).tamper = s.tamper := rfl
@[simp] theorem State.updLife_vault (f : Life → Life) : (s.updLife f).vault = s.vault := rfl
@[simp] theorem State.updLife_life (f : Life → Life) : (s.updLife f).life = f s.life := rfl
@[simp] theorem State.updLife_keys (f : Life → Life) : (s.updLife f).keys = s.keys := rfl
@[simp] theorem State.updLife_insts (f : Life → Life) : (s.updLife f).insts = s.insts := rfl
@[simp] theorem State.updLife_sqs (f : Life → Life) : (s.updLife f).sqs = s.sqs := rfl
@[simp] theorem State.updLife_cqs (f : Life → Life) : (s.updLife f).cqs = s.cqs := rfl
@[simp] theorem State.updLife_jobs (f : Life → Life) : (s.updLife f).jobs = s.jobs := rfl
@[simp] theorem State.updLife_units (f : Life → Life) : (s.updLife f).units = s.units := rfl
@[simp] theorem State.updLife_fab (f : Life → Life) : (s.updLife f).fab = s.fab := rfl
@[simp] theorem State.updLife_irq (f : Life → Life) : (s.updLife f).irq = s.irq := rfl
@[simp] theorem State.updLife_rt (f : Life → Life) : (s.updLife f).rt = s.rt := rfl
@[simp] theorem State.updLife_cnt (f : Life → Life) : (s.updLife f).cnt = s.cnt := rfl
@[simp] theorem State.updLife_dict (f : Life → Life) : (s.updLife f).dict = s.dict := rfl
@[simp] theorem State.updLife_cfg (f : Life → Life) : (s.updLife f).cfg = s.cfg := rfl
@[simp] theorem State.updLife_jnl (f : Life → Life) : (s.updLife f).jnl = s.jnl := rfl
@[simp] theorem State.updLife_card (f : Life → Life) : (s.updLife f).card = s.card := rfl
@[simp] theorem State.updLife_flt (f : Life → Life) : (s.updLife f).flt = s.flt := rfl
@[simp] theorem State.updLife_rng (f : Life → Life) : (s.updLife f).rng = s.rng := rfl
@[simp] theorem State.updLife_edge (f : Life → Life) : (s.updLife f).edge = s.edge := rfl
@[simp] theorem State.updLife_eoa (f : Life → Life) : (s.updLife f).eoa = s.eoa := rfl
@[simp] theorem State.updLife_cas (f : Life → Life) : (s.updLife f).cas = s.cas := rfl
@[simp] theorem State.updLife_disp (f : Life → Life) : (s.updLife f).disp = s.disp := rfl
@[simp] theorem State.updLife_inst (f : Life → Life) (n : Fin 128) : (s.updLife f).inst n = s.inst n := rfl
@[simp] theorem State.updLife_sq (f : Life → Life) (g : Fin 512) : (s.updLife f).sq g = s.sq g := rfl
@[simp] theorem State.updLife_cq (f : Life → Life) (q : Fin 256) : (s.updLife f).cq q = s.cq q := rfl

@[simp] theorem State.updKeys_pending (f : Keys → Keys) : (s.updKeys f).pending = s.pending := rfl
@[simp] theorem State.updKeys_now (f : Keys → Keys) : (s.updKeys f).now = s.now := rfl
@[simp] theorem State.updKeys_free (f : Keys → Keys) : (s.updKeys f).free = s.free := rfl
@[simp] theorem State.updKeys_pins (f : Keys → Keys) : (s.updKeys f).pins = s.pins := rfl
@[simp] theorem State.updKeys_pwr (f : Keys → Keys) : (s.updKeys f).pwr = s.pwr := rfl
@[simp] theorem State.updKeys_sentry (f : Keys → Keys) : (s.updKeys f).sentry = s.sentry := rfl
@[simp] theorem State.updKeys_tamper (f : Keys → Keys) : (s.updKeys f).tamper = s.tamper := rfl
@[simp] theorem State.updKeys_vault (f : Keys → Keys) : (s.updKeys f).vault = s.vault := rfl
@[simp] theorem State.updKeys_life (f : Keys → Keys) : (s.updKeys f).life = s.life := rfl
@[simp] theorem State.updKeys_keys (f : Keys → Keys) : (s.updKeys f).keys = f s.keys := rfl
@[simp] theorem State.updKeys_insts (f : Keys → Keys) : (s.updKeys f).insts = s.insts := rfl
@[simp] theorem State.updKeys_sqs (f : Keys → Keys) : (s.updKeys f).sqs = s.sqs := rfl
@[simp] theorem State.updKeys_cqs (f : Keys → Keys) : (s.updKeys f).cqs = s.cqs := rfl
@[simp] theorem State.updKeys_jobs (f : Keys → Keys) : (s.updKeys f).jobs = s.jobs := rfl
@[simp] theorem State.updKeys_units (f : Keys → Keys) : (s.updKeys f).units = s.units := rfl
@[simp] theorem State.updKeys_fab (f : Keys → Keys) : (s.updKeys f).fab = s.fab := rfl
@[simp] theorem State.updKeys_irq (f : Keys → Keys) : (s.updKeys f).irq = s.irq := rfl
@[simp] theorem State.updKeys_rt (f : Keys → Keys) : (s.updKeys f).rt = s.rt := rfl
@[simp] theorem State.updKeys_cnt (f : Keys → Keys) : (s.updKeys f).cnt = s.cnt := rfl
@[simp] theorem State.updKeys_dict (f : Keys → Keys) : (s.updKeys f).dict = s.dict := rfl
@[simp] theorem State.updKeys_cfg (f : Keys → Keys) : (s.updKeys f).cfg = s.cfg := rfl
@[simp] theorem State.updKeys_jnl (f : Keys → Keys) : (s.updKeys f).jnl = s.jnl := rfl
@[simp] theorem State.updKeys_card (f : Keys → Keys) : (s.updKeys f).card = s.card := rfl
@[simp] theorem State.updKeys_flt (f : Keys → Keys) : (s.updKeys f).flt = s.flt := rfl
@[simp] theorem State.updKeys_rng (f : Keys → Keys) : (s.updKeys f).rng = s.rng := rfl
@[simp] theorem State.updKeys_edge (f : Keys → Keys) : (s.updKeys f).edge = s.edge := rfl
@[simp] theorem State.updKeys_eoa (f : Keys → Keys) : (s.updKeys f).eoa = s.eoa := rfl
@[simp] theorem State.updKeys_cas (f : Keys → Keys) : (s.updKeys f).cas = s.cas := rfl
@[simp] theorem State.updKeys_disp (f : Keys → Keys) : (s.updKeys f).disp = s.disp := rfl
@[simp] theorem State.updKeys_inst (f : Keys → Keys) (n : Fin 128) : (s.updKeys f).inst n = s.inst n := rfl
@[simp] theorem State.updKeys_sq (f : Keys → Keys) (g : Fin 512) : (s.updKeys f).sq g = s.sq g := rfl
@[simp] theorem State.updKeys_cq (f : Keys → Keys) (q : Fin 256) : (s.updKeys f).cq q = s.cq q := rfl

@[simp] theorem State.updUnits_pending (f : Units → Units) : (s.updUnits f).pending = s.pending := rfl
@[simp] theorem State.updUnits_now (f : Units → Units) : (s.updUnits f).now = s.now := rfl
@[simp] theorem State.updUnits_free (f : Units → Units) : (s.updUnits f).free = s.free := rfl
@[simp] theorem State.updUnits_pins (f : Units → Units) : (s.updUnits f).pins = s.pins := rfl
@[simp] theorem State.updUnits_pwr (f : Units → Units) : (s.updUnits f).pwr = s.pwr := rfl
@[simp] theorem State.updUnits_sentry (f : Units → Units) : (s.updUnits f).sentry = s.sentry := rfl
@[simp] theorem State.updUnits_tamper (f : Units → Units) : (s.updUnits f).tamper = s.tamper := rfl
@[simp] theorem State.updUnits_vault (f : Units → Units) : (s.updUnits f).vault = s.vault := rfl
@[simp] theorem State.updUnits_life (f : Units → Units) : (s.updUnits f).life = s.life := rfl
@[simp] theorem State.updUnits_keys (f : Units → Units) : (s.updUnits f).keys = s.keys := rfl
@[simp] theorem State.updUnits_insts (f : Units → Units) : (s.updUnits f).insts = s.insts := rfl
@[simp] theorem State.updUnits_sqs (f : Units → Units) : (s.updUnits f).sqs = s.sqs := rfl
@[simp] theorem State.updUnits_cqs (f : Units → Units) : (s.updUnits f).cqs = s.cqs := rfl
@[simp] theorem State.updUnits_jobs (f : Units → Units) : (s.updUnits f).jobs = s.jobs := rfl
@[simp] theorem State.updUnits_units (f : Units → Units) : (s.updUnits f).units = f s.units := rfl
@[simp] theorem State.updUnits_fab (f : Units → Units) : (s.updUnits f).fab = s.fab := rfl
@[simp] theorem State.updUnits_irq (f : Units → Units) : (s.updUnits f).irq = s.irq := rfl
@[simp] theorem State.updUnits_rt (f : Units → Units) : (s.updUnits f).rt = s.rt := rfl
@[simp] theorem State.updUnits_cnt (f : Units → Units) : (s.updUnits f).cnt = s.cnt := rfl
@[simp] theorem State.updUnits_dict (f : Units → Units) : (s.updUnits f).dict = s.dict := rfl
@[simp] theorem State.updUnits_cfg (f : Units → Units) : (s.updUnits f).cfg = s.cfg := rfl
@[simp] theorem State.updUnits_jnl (f : Units → Units) : (s.updUnits f).jnl = s.jnl := rfl
@[simp] theorem State.updUnits_card (f : Units → Units) : (s.updUnits f).card = s.card := rfl
@[simp] theorem State.updUnits_flt (f : Units → Units) : (s.updUnits f).flt = s.flt := rfl
@[simp] theorem State.updUnits_rng (f : Units → Units) : (s.updUnits f).rng = s.rng := rfl
@[simp] theorem State.updUnits_edge (f : Units → Units) : (s.updUnits f).edge = s.edge := rfl
@[simp] theorem State.updUnits_eoa (f : Units → Units) : (s.updUnits f).eoa = s.eoa := rfl
@[simp] theorem State.updUnits_cas (f : Units → Units) : (s.updUnits f).cas = s.cas := rfl
@[simp] theorem State.updUnits_disp (f : Units → Units) : (s.updUnits f).disp = s.disp := rfl
@[simp] theorem State.updUnits_inst (f : Units → Units) (n : Fin 128) : (s.updUnits f).inst n = s.inst n := rfl
@[simp] theorem State.updUnits_sq (f : Units → Units) (g : Fin 512) : (s.updUnits f).sq g = s.sq g := rfl
@[simp] theorem State.updUnits_cq (f : Units → Units) (q : Fin 256) : (s.updUnits f).cq q = s.cq q := rfl

@[simp] theorem State.updFab_pending (f : Fab → Fab) : (s.updFab f).pending = s.pending := rfl
@[simp] theorem State.updFab_now (f : Fab → Fab) : (s.updFab f).now = s.now := rfl
@[simp] theorem State.updFab_free (f : Fab → Fab) : (s.updFab f).free = s.free := rfl
@[simp] theorem State.updFab_pins (f : Fab → Fab) : (s.updFab f).pins = s.pins := rfl
@[simp] theorem State.updFab_pwr (f : Fab → Fab) : (s.updFab f).pwr = s.pwr := rfl
@[simp] theorem State.updFab_sentry (f : Fab → Fab) : (s.updFab f).sentry = s.sentry := rfl
@[simp] theorem State.updFab_tamper (f : Fab → Fab) : (s.updFab f).tamper = s.tamper := rfl
@[simp] theorem State.updFab_vault (f : Fab → Fab) : (s.updFab f).vault = s.vault := rfl
@[simp] theorem State.updFab_life (f : Fab → Fab) : (s.updFab f).life = s.life := rfl
@[simp] theorem State.updFab_keys (f : Fab → Fab) : (s.updFab f).keys = s.keys := rfl
@[simp] theorem State.updFab_insts (f : Fab → Fab) : (s.updFab f).insts = s.insts := rfl
@[simp] theorem State.updFab_sqs (f : Fab → Fab) : (s.updFab f).sqs = s.sqs := rfl
@[simp] theorem State.updFab_cqs (f : Fab → Fab) : (s.updFab f).cqs = s.cqs := rfl
@[simp] theorem State.updFab_jobs (f : Fab → Fab) : (s.updFab f).jobs = s.jobs := rfl
@[simp] theorem State.updFab_units (f : Fab → Fab) : (s.updFab f).units = s.units := rfl
@[simp] theorem State.updFab_fab (f : Fab → Fab) : (s.updFab f).fab = f s.fab := rfl
@[simp] theorem State.updFab_irq (f : Fab → Fab) : (s.updFab f).irq = s.irq := rfl
@[simp] theorem State.updFab_rt (f : Fab → Fab) : (s.updFab f).rt = s.rt := rfl
@[simp] theorem State.updFab_cnt (f : Fab → Fab) : (s.updFab f).cnt = s.cnt := rfl
@[simp] theorem State.updFab_dict (f : Fab → Fab) : (s.updFab f).dict = s.dict := rfl
@[simp] theorem State.updFab_cfg (f : Fab → Fab) : (s.updFab f).cfg = s.cfg := rfl
@[simp] theorem State.updFab_jnl (f : Fab → Fab) : (s.updFab f).jnl = s.jnl := rfl
@[simp] theorem State.updFab_card (f : Fab → Fab) : (s.updFab f).card = s.card := rfl
@[simp] theorem State.updFab_flt (f : Fab → Fab) : (s.updFab f).flt = s.flt := rfl
@[simp] theorem State.updFab_rng (f : Fab → Fab) : (s.updFab f).rng = s.rng := rfl
@[simp] theorem State.updFab_edge (f : Fab → Fab) : (s.updFab f).edge = s.edge := rfl
@[simp] theorem State.updFab_eoa (f : Fab → Fab) : (s.updFab f).eoa = s.eoa := rfl
@[simp] theorem State.updFab_cas (f : Fab → Fab) : (s.updFab f).cas = s.cas := rfl
@[simp] theorem State.updFab_disp (f : Fab → Fab) : (s.updFab f).disp = s.disp := rfl
@[simp] theorem State.updFab_inst (f : Fab → Fab) (n : Fin 128) : (s.updFab f).inst n = s.inst n := rfl
@[simp] theorem State.updFab_sq (f : Fab → Fab) (g : Fin 512) : (s.updFab f).sq g = s.sq g := rfl
@[simp] theorem State.updFab_cq (f : Fab → Fab) (q : Fin 256) : (s.updFab f).cq q = s.cq q := rfl

@[simp] theorem State.updIrq_pending (f : Irq → Irq) : (s.updIrq f).pending = s.pending := rfl
@[simp] theorem State.updIrq_now (f : Irq → Irq) : (s.updIrq f).now = s.now := rfl
@[simp] theorem State.updIrq_free (f : Irq → Irq) : (s.updIrq f).free = s.free := rfl
@[simp] theorem State.updIrq_pins (f : Irq → Irq) : (s.updIrq f).pins = s.pins := rfl
@[simp] theorem State.updIrq_pwr (f : Irq → Irq) : (s.updIrq f).pwr = s.pwr := rfl
@[simp] theorem State.updIrq_sentry (f : Irq → Irq) : (s.updIrq f).sentry = s.sentry := rfl
@[simp] theorem State.updIrq_tamper (f : Irq → Irq) : (s.updIrq f).tamper = s.tamper := rfl
@[simp] theorem State.updIrq_vault (f : Irq → Irq) : (s.updIrq f).vault = s.vault := rfl
@[simp] theorem State.updIrq_life (f : Irq → Irq) : (s.updIrq f).life = s.life := rfl
@[simp] theorem State.updIrq_keys (f : Irq → Irq) : (s.updIrq f).keys = s.keys := rfl
@[simp] theorem State.updIrq_insts (f : Irq → Irq) : (s.updIrq f).insts = s.insts := rfl
@[simp] theorem State.updIrq_sqs (f : Irq → Irq) : (s.updIrq f).sqs = s.sqs := rfl
@[simp] theorem State.updIrq_cqs (f : Irq → Irq) : (s.updIrq f).cqs = s.cqs := rfl
@[simp] theorem State.updIrq_jobs (f : Irq → Irq) : (s.updIrq f).jobs = s.jobs := rfl
@[simp] theorem State.updIrq_units (f : Irq → Irq) : (s.updIrq f).units = s.units := rfl
@[simp] theorem State.updIrq_fab (f : Irq → Irq) : (s.updIrq f).fab = s.fab := rfl
@[simp] theorem State.updIrq_irq (f : Irq → Irq) : (s.updIrq f).irq = f s.irq := rfl
@[simp] theorem State.updIrq_rt (f : Irq → Irq) : (s.updIrq f).rt = s.rt := rfl
@[simp] theorem State.updIrq_cnt (f : Irq → Irq) : (s.updIrq f).cnt = s.cnt := rfl
@[simp] theorem State.updIrq_dict (f : Irq → Irq) : (s.updIrq f).dict = s.dict := rfl
@[simp] theorem State.updIrq_cfg (f : Irq → Irq) : (s.updIrq f).cfg = s.cfg := rfl
@[simp] theorem State.updIrq_jnl (f : Irq → Irq) : (s.updIrq f).jnl = s.jnl := rfl
@[simp] theorem State.updIrq_card (f : Irq → Irq) : (s.updIrq f).card = s.card := rfl
@[simp] theorem State.updIrq_flt (f : Irq → Irq) : (s.updIrq f).flt = s.flt := rfl
@[simp] theorem State.updIrq_rng (f : Irq → Irq) : (s.updIrq f).rng = s.rng := rfl
@[simp] theorem State.updIrq_edge (f : Irq → Irq) : (s.updIrq f).edge = s.edge := rfl
@[simp] theorem State.updIrq_eoa (f : Irq → Irq) : (s.updIrq f).eoa = s.eoa := rfl
@[simp] theorem State.updIrq_cas (f : Irq → Irq) : (s.updIrq f).cas = s.cas := rfl
@[simp] theorem State.updIrq_disp (f : Irq → Irq) : (s.updIrq f).disp = s.disp := rfl
@[simp] theorem State.updIrq_inst (f : Irq → Irq) (n : Fin 128) : (s.updIrq f).inst n = s.inst n := rfl
@[simp] theorem State.updIrq_sq (f : Irq → Irq) (g : Fin 512) : (s.updIrq f).sq g = s.sq g := rfl
@[simp] theorem State.updIrq_cq (f : Irq → Irq) (q : Fin 256) : (s.updIrq f).cq q = s.cq q := rfl

@[simp] theorem State.updRt_pending (f : Rt → Rt) : (s.updRt f).pending = s.pending := rfl
@[simp] theorem State.updRt_now (f : Rt → Rt) : (s.updRt f).now = s.now := rfl
@[simp] theorem State.updRt_free (f : Rt → Rt) : (s.updRt f).free = s.free := rfl
@[simp] theorem State.updRt_pins (f : Rt → Rt) : (s.updRt f).pins = s.pins := rfl
@[simp] theorem State.updRt_pwr (f : Rt → Rt) : (s.updRt f).pwr = s.pwr := rfl
@[simp] theorem State.updRt_sentry (f : Rt → Rt) : (s.updRt f).sentry = s.sentry := rfl
@[simp] theorem State.updRt_tamper (f : Rt → Rt) : (s.updRt f).tamper = s.tamper := rfl
@[simp] theorem State.updRt_vault (f : Rt → Rt) : (s.updRt f).vault = s.vault := rfl
@[simp] theorem State.updRt_life (f : Rt → Rt) : (s.updRt f).life = s.life := rfl
@[simp] theorem State.updRt_keys (f : Rt → Rt) : (s.updRt f).keys = s.keys := rfl
@[simp] theorem State.updRt_insts (f : Rt → Rt) : (s.updRt f).insts = s.insts := rfl
@[simp] theorem State.updRt_sqs (f : Rt → Rt) : (s.updRt f).sqs = s.sqs := rfl
@[simp] theorem State.updRt_cqs (f : Rt → Rt) : (s.updRt f).cqs = s.cqs := rfl
@[simp] theorem State.updRt_jobs (f : Rt → Rt) : (s.updRt f).jobs = s.jobs := rfl
@[simp] theorem State.updRt_units (f : Rt → Rt) : (s.updRt f).units = s.units := rfl
@[simp] theorem State.updRt_fab (f : Rt → Rt) : (s.updRt f).fab = s.fab := rfl
@[simp] theorem State.updRt_irq (f : Rt → Rt) : (s.updRt f).irq = s.irq := rfl
@[simp] theorem State.updRt_rt (f : Rt → Rt) : (s.updRt f).rt = f s.rt := rfl
@[simp] theorem State.updRt_cnt (f : Rt → Rt) : (s.updRt f).cnt = s.cnt := rfl
@[simp] theorem State.updRt_dict (f : Rt → Rt) : (s.updRt f).dict = s.dict := rfl
@[simp] theorem State.updRt_cfg (f : Rt → Rt) : (s.updRt f).cfg = s.cfg := rfl
@[simp] theorem State.updRt_jnl (f : Rt → Rt) : (s.updRt f).jnl = s.jnl := rfl
@[simp] theorem State.updRt_card (f : Rt → Rt) : (s.updRt f).card = s.card := rfl
@[simp] theorem State.updRt_flt (f : Rt → Rt) : (s.updRt f).flt = s.flt := rfl
@[simp] theorem State.updRt_rng (f : Rt → Rt) : (s.updRt f).rng = s.rng := rfl
@[simp] theorem State.updRt_edge (f : Rt → Rt) : (s.updRt f).edge = s.edge := rfl
@[simp] theorem State.updRt_eoa (f : Rt → Rt) : (s.updRt f).eoa = s.eoa := rfl
@[simp] theorem State.updRt_cas (f : Rt → Rt) : (s.updRt f).cas = s.cas := rfl
@[simp] theorem State.updRt_disp (f : Rt → Rt) : (s.updRt f).disp = s.disp := rfl
@[simp] theorem State.updRt_inst (f : Rt → Rt) (n : Fin 128) : (s.updRt f).inst n = s.inst n := rfl
@[simp] theorem State.updRt_sq (f : Rt → Rt) (g : Fin 512) : (s.updRt f).sq g = s.sq g := rfl
@[simp] theorem State.updRt_cq (f : Rt → Rt) (q : Fin 256) : (s.updRt f).cq q = s.cq q := rfl

@[simp] theorem State.updCnt_pending (f : Cnt → Cnt) : (s.updCnt f).pending = s.pending := rfl
@[simp] theorem State.updCnt_now (f : Cnt → Cnt) : (s.updCnt f).now = s.now := rfl
@[simp] theorem State.updCnt_free (f : Cnt → Cnt) : (s.updCnt f).free = s.free := rfl
@[simp] theorem State.updCnt_pins (f : Cnt → Cnt) : (s.updCnt f).pins = s.pins := rfl
@[simp] theorem State.updCnt_pwr (f : Cnt → Cnt) : (s.updCnt f).pwr = s.pwr := rfl
@[simp] theorem State.updCnt_sentry (f : Cnt → Cnt) : (s.updCnt f).sentry = s.sentry := rfl
@[simp] theorem State.updCnt_tamper (f : Cnt → Cnt) : (s.updCnt f).tamper = s.tamper := rfl
@[simp] theorem State.updCnt_vault (f : Cnt → Cnt) : (s.updCnt f).vault = s.vault := rfl
@[simp] theorem State.updCnt_life (f : Cnt → Cnt) : (s.updCnt f).life = s.life := rfl
@[simp] theorem State.updCnt_keys (f : Cnt → Cnt) : (s.updCnt f).keys = s.keys := rfl
@[simp] theorem State.updCnt_insts (f : Cnt → Cnt) : (s.updCnt f).insts = s.insts := rfl
@[simp] theorem State.updCnt_sqs (f : Cnt → Cnt) : (s.updCnt f).sqs = s.sqs := rfl
@[simp] theorem State.updCnt_cqs (f : Cnt → Cnt) : (s.updCnt f).cqs = s.cqs := rfl
@[simp] theorem State.updCnt_jobs (f : Cnt → Cnt) : (s.updCnt f).jobs = s.jobs := rfl
@[simp] theorem State.updCnt_units (f : Cnt → Cnt) : (s.updCnt f).units = s.units := rfl
@[simp] theorem State.updCnt_fab (f : Cnt → Cnt) : (s.updCnt f).fab = s.fab := rfl
@[simp] theorem State.updCnt_irq (f : Cnt → Cnt) : (s.updCnt f).irq = s.irq := rfl
@[simp] theorem State.updCnt_rt (f : Cnt → Cnt) : (s.updCnt f).rt = s.rt := rfl
@[simp] theorem State.updCnt_cnt (f : Cnt → Cnt) : (s.updCnt f).cnt = f s.cnt := rfl
@[simp] theorem State.updCnt_dict (f : Cnt → Cnt) : (s.updCnt f).dict = s.dict := rfl
@[simp] theorem State.updCnt_cfg (f : Cnt → Cnt) : (s.updCnt f).cfg = s.cfg := rfl
@[simp] theorem State.updCnt_jnl (f : Cnt → Cnt) : (s.updCnt f).jnl = s.jnl := rfl
@[simp] theorem State.updCnt_card (f : Cnt → Cnt) : (s.updCnt f).card = s.card := rfl
@[simp] theorem State.updCnt_flt (f : Cnt → Cnt) : (s.updCnt f).flt = s.flt := rfl
@[simp] theorem State.updCnt_rng (f : Cnt → Cnt) : (s.updCnt f).rng = s.rng := rfl
@[simp] theorem State.updCnt_edge (f : Cnt → Cnt) : (s.updCnt f).edge = s.edge := rfl
@[simp] theorem State.updCnt_eoa (f : Cnt → Cnt) : (s.updCnt f).eoa = s.eoa := rfl
@[simp] theorem State.updCnt_cas (f : Cnt → Cnt) : (s.updCnt f).cas = s.cas := rfl
@[simp] theorem State.updCnt_disp (f : Cnt → Cnt) : (s.updCnt f).disp = s.disp := rfl
@[simp] theorem State.updCnt_inst (f : Cnt → Cnt) (n : Fin 128) : (s.updCnt f).inst n = s.inst n := rfl
@[simp] theorem State.updCnt_sq (f : Cnt → Cnt) (g : Fin 512) : (s.updCnt f).sq g = s.sq g := rfl
@[simp] theorem State.updCnt_cq (f : Cnt → Cnt) (q : Fin 256) : (s.updCnt f).cq q = s.cq q := rfl

@[simp] theorem State.updDict_pending (f : Dict → Dict) : (s.updDict f).pending = s.pending := rfl
@[simp] theorem State.updDict_now (f : Dict → Dict) : (s.updDict f).now = s.now := rfl
@[simp] theorem State.updDict_free (f : Dict → Dict) : (s.updDict f).free = s.free := rfl
@[simp] theorem State.updDict_pins (f : Dict → Dict) : (s.updDict f).pins = s.pins := rfl
@[simp] theorem State.updDict_pwr (f : Dict → Dict) : (s.updDict f).pwr = s.pwr := rfl
@[simp] theorem State.updDict_sentry (f : Dict → Dict) : (s.updDict f).sentry = s.sentry := rfl
@[simp] theorem State.updDict_tamper (f : Dict → Dict) : (s.updDict f).tamper = s.tamper := rfl
@[simp] theorem State.updDict_vault (f : Dict → Dict) : (s.updDict f).vault = s.vault := rfl
@[simp] theorem State.updDict_life (f : Dict → Dict) : (s.updDict f).life = s.life := rfl
@[simp] theorem State.updDict_keys (f : Dict → Dict) : (s.updDict f).keys = s.keys := rfl
@[simp] theorem State.updDict_insts (f : Dict → Dict) : (s.updDict f).insts = s.insts := rfl
@[simp] theorem State.updDict_sqs (f : Dict → Dict) : (s.updDict f).sqs = s.sqs := rfl
@[simp] theorem State.updDict_cqs (f : Dict → Dict) : (s.updDict f).cqs = s.cqs := rfl
@[simp] theorem State.updDict_jobs (f : Dict → Dict) : (s.updDict f).jobs = s.jobs := rfl
@[simp] theorem State.updDict_units (f : Dict → Dict) : (s.updDict f).units = s.units := rfl
@[simp] theorem State.updDict_fab (f : Dict → Dict) : (s.updDict f).fab = s.fab := rfl
@[simp] theorem State.updDict_irq (f : Dict → Dict) : (s.updDict f).irq = s.irq := rfl
@[simp] theorem State.updDict_rt (f : Dict → Dict) : (s.updDict f).rt = s.rt := rfl
@[simp] theorem State.updDict_cnt (f : Dict → Dict) : (s.updDict f).cnt = s.cnt := rfl
@[simp] theorem State.updDict_dict (f : Dict → Dict) : (s.updDict f).dict = f s.dict := rfl
@[simp] theorem State.updDict_cfg (f : Dict → Dict) : (s.updDict f).cfg = s.cfg := rfl
@[simp] theorem State.updDict_jnl (f : Dict → Dict) : (s.updDict f).jnl = s.jnl := rfl
@[simp] theorem State.updDict_card (f : Dict → Dict) : (s.updDict f).card = s.card := rfl
@[simp] theorem State.updDict_flt (f : Dict → Dict) : (s.updDict f).flt = s.flt := rfl
@[simp] theorem State.updDict_rng (f : Dict → Dict) : (s.updDict f).rng = s.rng := rfl
@[simp] theorem State.updDict_edge (f : Dict → Dict) : (s.updDict f).edge = s.edge := rfl
@[simp] theorem State.updDict_eoa (f : Dict → Dict) : (s.updDict f).eoa = s.eoa := rfl
@[simp] theorem State.updDict_cas (f : Dict → Dict) : (s.updDict f).cas = s.cas := rfl
@[simp] theorem State.updDict_disp (f : Dict → Dict) : (s.updDict f).disp = s.disp := rfl
@[simp] theorem State.updDict_inst (f : Dict → Dict) (n : Fin 128) : (s.updDict f).inst n = s.inst n := rfl
@[simp] theorem State.updDict_sq (f : Dict → Dict) (g : Fin 512) : (s.updDict f).sq g = s.sq g := rfl
@[simp] theorem State.updDict_cq (f : Dict → Dict) (q : Fin 256) : (s.updDict f).cq q = s.cq q := rfl

@[simp] theorem State.updCfg_pending (f : Cfg → Cfg) : (s.updCfg f).pending = s.pending := rfl
@[simp] theorem State.updCfg_now (f : Cfg → Cfg) : (s.updCfg f).now = s.now := rfl
@[simp] theorem State.updCfg_free (f : Cfg → Cfg) : (s.updCfg f).free = s.free := rfl
@[simp] theorem State.updCfg_pins (f : Cfg → Cfg) : (s.updCfg f).pins = s.pins := rfl
@[simp] theorem State.updCfg_pwr (f : Cfg → Cfg) : (s.updCfg f).pwr = s.pwr := rfl
@[simp] theorem State.updCfg_sentry (f : Cfg → Cfg) : (s.updCfg f).sentry = s.sentry := rfl
@[simp] theorem State.updCfg_tamper (f : Cfg → Cfg) : (s.updCfg f).tamper = s.tamper := rfl
@[simp] theorem State.updCfg_vault (f : Cfg → Cfg) : (s.updCfg f).vault = s.vault := rfl
@[simp] theorem State.updCfg_life (f : Cfg → Cfg) : (s.updCfg f).life = s.life := rfl
@[simp] theorem State.updCfg_keys (f : Cfg → Cfg) : (s.updCfg f).keys = s.keys := rfl
@[simp] theorem State.updCfg_insts (f : Cfg → Cfg) : (s.updCfg f).insts = s.insts := rfl
@[simp] theorem State.updCfg_sqs (f : Cfg → Cfg) : (s.updCfg f).sqs = s.sqs := rfl
@[simp] theorem State.updCfg_cqs (f : Cfg → Cfg) : (s.updCfg f).cqs = s.cqs := rfl
@[simp] theorem State.updCfg_jobs (f : Cfg → Cfg) : (s.updCfg f).jobs = s.jobs := rfl
@[simp] theorem State.updCfg_units (f : Cfg → Cfg) : (s.updCfg f).units = s.units := rfl
@[simp] theorem State.updCfg_fab (f : Cfg → Cfg) : (s.updCfg f).fab = s.fab := rfl
@[simp] theorem State.updCfg_irq (f : Cfg → Cfg) : (s.updCfg f).irq = s.irq := rfl
@[simp] theorem State.updCfg_rt (f : Cfg → Cfg) : (s.updCfg f).rt = s.rt := rfl
@[simp] theorem State.updCfg_cnt (f : Cfg → Cfg) : (s.updCfg f).cnt = s.cnt := rfl
@[simp] theorem State.updCfg_dict (f : Cfg → Cfg) : (s.updCfg f).dict = s.dict := rfl
@[simp] theorem State.updCfg_cfg (f : Cfg → Cfg) : (s.updCfg f).cfg = f s.cfg := rfl
@[simp] theorem State.updCfg_jnl (f : Cfg → Cfg) : (s.updCfg f).jnl = s.jnl := rfl
@[simp] theorem State.updCfg_card (f : Cfg → Cfg) : (s.updCfg f).card = s.card := rfl
@[simp] theorem State.updCfg_flt (f : Cfg → Cfg) : (s.updCfg f).flt = s.flt := rfl
@[simp] theorem State.updCfg_rng (f : Cfg → Cfg) : (s.updCfg f).rng = s.rng := rfl
@[simp] theorem State.updCfg_edge (f : Cfg → Cfg) : (s.updCfg f).edge = s.edge := rfl
@[simp] theorem State.updCfg_eoa (f : Cfg → Cfg) : (s.updCfg f).eoa = s.eoa := rfl
@[simp] theorem State.updCfg_cas (f : Cfg → Cfg) : (s.updCfg f).cas = s.cas := rfl
@[simp] theorem State.updCfg_disp (f : Cfg → Cfg) : (s.updCfg f).disp = s.disp := rfl
@[simp] theorem State.updCfg_inst (f : Cfg → Cfg) (n : Fin 128) : (s.updCfg f).inst n = s.inst n := rfl
@[simp] theorem State.updCfg_sq (f : Cfg → Cfg) (g : Fin 512) : (s.updCfg f).sq g = s.sq g := rfl
@[simp] theorem State.updCfg_cq (f : Cfg → Cfg) (q : Fin 256) : (s.updCfg f).cq q = s.cq q := rfl

@[simp] theorem State.updJnl_pending (f : Jnl → Jnl) : (s.updJnl f).pending = s.pending := rfl
@[simp] theorem State.updJnl_now (f : Jnl → Jnl) : (s.updJnl f).now = s.now := rfl
@[simp] theorem State.updJnl_free (f : Jnl → Jnl) : (s.updJnl f).free = s.free := rfl
@[simp] theorem State.updJnl_pins (f : Jnl → Jnl) : (s.updJnl f).pins = s.pins := rfl
@[simp] theorem State.updJnl_pwr (f : Jnl → Jnl) : (s.updJnl f).pwr = s.pwr := rfl
@[simp] theorem State.updJnl_sentry (f : Jnl → Jnl) : (s.updJnl f).sentry = s.sentry := rfl
@[simp] theorem State.updJnl_tamper (f : Jnl → Jnl) : (s.updJnl f).tamper = s.tamper := rfl
@[simp] theorem State.updJnl_vault (f : Jnl → Jnl) : (s.updJnl f).vault = s.vault := rfl
@[simp] theorem State.updJnl_life (f : Jnl → Jnl) : (s.updJnl f).life = s.life := rfl
@[simp] theorem State.updJnl_keys (f : Jnl → Jnl) : (s.updJnl f).keys = s.keys := rfl
@[simp] theorem State.updJnl_insts (f : Jnl → Jnl) : (s.updJnl f).insts = s.insts := rfl
@[simp] theorem State.updJnl_sqs (f : Jnl → Jnl) : (s.updJnl f).sqs = s.sqs := rfl
@[simp] theorem State.updJnl_cqs (f : Jnl → Jnl) : (s.updJnl f).cqs = s.cqs := rfl
@[simp] theorem State.updJnl_jobs (f : Jnl → Jnl) : (s.updJnl f).jobs = s.jobs := rfl
@[simp] theorem State.updJnl_units (f : Jnl → Jnl) : (s.updJnl f).units = s.units := rfl
@[simp] theorem State.updJnl_fab (f : Jnl → Jnl) : (s.updJnl f).fab = s.fab := rfl
@[simp] theorem State.updJnl_irq (f : Jnl → Jnl) : (s.updJnl f).irq = s.irq := rfl
@[simp] theorem State.updJnl_rt (f : Jnl → Jnl) : (s.updJnl f).rt = s.rt := rfl
@[simp] theorem State.updJnl_cnt (f : Jnl → Jnl) : (s.updJnl f).cnt = s.cnt := rfl
@[simp] theorem State.updJnl_dict (f : Jnl → Jnl) : (s.updJnl f).dict = s.dict := rfl
@[simp] theorem State.updJnl_cfg (f : Jnl → Jnl) : (s.updJnl f).cfg = s.cfg := rfl
@[simp] theorem State.updJnl_jnl (f : Jnl → Jnl) : (s.updJnl f).jnl = f s.jnl := rfl
@[simp] theorem State.updJnl_card (f : Jnl → Jnl) : (s.updJnl f).card = s.card := rfl
@[simp] theorem State.updJnl_flt (f : Jnl → Jnl) : (s.updJnl f).flt = s.flt := rfl
@[simp] theorem State.updJnl_rng (f : Jnl → Jnl) : (s.updJnl f).rng = s.rng := rfl
@[simp] theorem State.updJnl_edge (f : Jnl → Jnl) : (s.updJnl f).edge = s.edge := rfl
@[simp] theorem State.updJnl_eoa (f : Jnl → Jnl) : (s.updJnl f).eoa = s.eoa := rfl
@[simp] theorem State.updJnl_cas (f : Jnl → Jnl) : (s.updJnl f).cas = s.cas := rfl
@[simp] theorem State.updJnl_disp (f : Jnl → Jnl) : (s.updJnl f).disp = s.disp := rfl
@[simp] theorem State.updJnl_inst (f : Jnl → Jnl) (n : Fin 128) : (s.updJnl f).inst n = s.inst n := rfl
@[simp] theorem State.updJnl_sq (f : Jnl → Jnl) (g : Fin 512) : (s.updJnl f).sq g = s.sq g := rfl
@[simp] theorem State.updJnl_cq (f : Jnl → Jnl) (q : Fin 256) : (s.updJnl f).cq q = s.cq q := rfl

@[simp] theorem State.updCard_pending (f : Card → Card) : (s.updCard f).pending = s.pending := rfl
@[simp] theorem State.updCard_now (f : Card → Card) : (s.updCard f).now = s.now := rfl
@[simp] theorem State.updCard_free (f : Card → Card) : (s.updCard f).free = s.free := rfl
@[simp] theorem State.updCard_pins (f : Card → Card) : (s.updCard f).pins = s.pins := rfl
@[simp] theorem State.updCard_pwr (f : Card → Card) : (s.updCard f).pwr = s.pwr := rfl
@[simp] theorem State.updCard_sentry (f : Card → Card) : (s.updCard f).sentry = s.sentry := rfl
@[simp] theorem State.updCard_tamper (f : Card → Card) : (s.updCard f).tamper = s.tamper := rfl
@[simp] theorem State.updCard_vault (f : Card → Card) : (s.updCard f).vault = s.vault := rfl
@[simp] theorem State.updCard_life (f : Card → Card) : (s.updCard f).life = s.life := rfl
@[simp] theorem State.updCard_keys (f : Card → Card) : (s.updCard f).keys = s.keys := rfl
@[simp] theorem State.updCard_insts (f : Card → Card) : (s.updCard f).insts = s.insts := rfl
@[simp] theorem State.updCard_sqs (f : Card → Card) : (s.updCard f).sqs = s.sqs := rfl
@[simp] theorem State.updCard_cqs (f : Card → Card) : (s.updCard f).cqs = s.cqs := rfl
@[simp] theorem State.updCard_jobs (f : Card → Card) : (s.updCard f).jobs = s.jobs := rfl
@[simp] theorem State.updCard_units (f : Card → Card) : (s.updCard f).units = s.units := rfl
@[simp] theorem State.updCard_fab (f : Card → Card) : (s.updCard f).fab = s.fab := rfl
@[simp] theorem State.updCard_irq (f : Card → Card) : (s.updCard f).irq = s.irq := rfl
@[simp] theorem State.updCard_rt (f : Card → Card) : (s.updCard f).rt = s.rt := rfl
@[simp] theorem State.updCard_cnt (f : Card → Card) : (s.updCard f).cnt = s.cnt := rfl
@[simp] theorem State.updCard_dict (f : Card → Card) : (s.updCard f).dict = s.dict := rfl
@[simp] theorem State.updCard_cfg (f : Card → Card) : (s.updCard f).cfg = s.cfg := rfl
@[simp] theorem State.updCard_jnl (f : Card → Card) : (s.updCard f).jnl = s.jnl := rfl
@[simp] theorem State.updCard_card (f : Card → Card) : (s.updCard f).card = f s.card := rfl
@[simp] theorem State.updCard_flt (f : Card → Card) : (s.updCard f).flt = s.flt := rfl
@[simp] theorem State.updCard_rng (f : Card → Card) : (s.updCard f).rng = s.rng := rfl
@[simp] theorem State.updCard_edge (f : Card → Card) : (s.updCard f).edge = s.edge := rfl
@[simp] theorem State.updCard_eoa (f : Card → Card) : (s.updCard f).eoa = s.eoa := rfl
@[simp] theorem State.updCard_cas (f : Card → Card) : (s.updCard f).cas = s.cas := rfl
@[simp] theorem State.updCard_disp (f : Card → Card) : (s.updCard f).disp = s.disp := rfl
@[simp] theorem State.updCard_inst (f : Card → Card) (n : Fin 128) : (s.updCard f).inst n = s.inst n := rfl
@[simp] theorem State.updCard_sq (f : Card → Card) (g : Fin 512) : (s.updCard f).sq g = s.sq g := rfl
@[simp] theorem State.updCard_cq (f : Card → Card) (q : Fin 256) : (s.updCard f).cq q = s.cq q := rfl

@[simp] theorem State.updFlt_pending (f : Flt → Flt) : (s.updFlt f).pending = s.pending := rfl
@[simp] theorem State.updFlt_now (f : Flt → Flt) : (s.updFlt f).now = s.now := rfl
@[simp] theorem State.updFlt_free (f : Flt → Flt) : (s.updFlt f).free = s.free := rfl
@[simp] theorem State.updFlt_pins (f : Flt → Flt) : (s.updFlt f).pins = s.pins := rfl
@[simp] theorem State.updFlt_pwr (f : Flt → Flt) : (s.updFlt f).pwr = s.pwr := rfl
@[simp] theorem State.updFlt_sentry (f : Flt → Flt) : (s.updFlt f).sentry = s.sentry := rfl
@[simp] theorem State.updFlt_tamper (f : Flt → Flt) : (s.updFlt f).tamper = s.tamper := rfl
@[simp] theorem State.updFlt_vault (f : Flt → Flt) : (s.updFlt f).vault = s.vault := rfl
@[simp] theorem State.updFlt_life (f : Flt → Flt) : (s.updFlt f).life = s.life := rfl
@[simp] theorem State.updFlt_keys (f : Flt → Flt) : (s.updFlt f).keys = s.keys := rfl
@[simp] theorem State.updFlt_insts (f : Flt → Flt) : (s.updFlt f).insts = s.insts := rfl
@[simp] theorem State.updFlt_sqs (f : Flt → Flt) : (s.updFlt f).sqs = s.sqs := rfl
@[simp] theorem State.updFlt_cqs (f : Flt → Flt) : (s.updFlt f).cqs = s.cqs := rfl
@[simp] theorem State.updFlt_jobs (f : Flt → Flt) : (s.updFlt f).jobs = s.jobs := rfl
@[simp] theorem State.updFlt_units (f : Flt → Flt) : (s.updFlt f).units = s.units := rfl
@[simp] theorem State.updFlt_fab (f : Flt → Flt) : (s.updFlt f).fab = s.fab := rfl
@[simp] theorem State.updFlt_irq (f : Flt → Flt) : (s.updFlt f).irq = s.irq := rfl
@[simp] theorem State.updFlt_rt (f : Flt → Flt) : (s.updFlt f).rt = s.rt := rfl
@[simp] theorem State.updFlt_cnt (f : Flt → Flt) : (s.updFlt f).cnt = s.cnt := rfl
@[simp] theorem State.updFlt_dict (f : Flt → Flt) : (s.updFlt f).dict = s.dict := rfl
@[simp] theorem State.updFlt_cfg (f : Flt → Flt) : (s.updFlt f).cfg = s.cfg := rfl
@[simp] theorem State.updFlt_jnl (f : Flt → Flt) : (s.updFlt f).jnl = s.jnl := rfl
@[simp] theorem State.updFlt_card (f : Flt → Flt) : (s.updFlt f).card = s.card := rfl
@[simp] theorem State.updFlt_flt (f : Flt → Flt) : (s.updFlt f).flt = f s.flt := rfl
@[simp] theorem State.updFlt_rng (f : Flt → Flt) : (s.updFlt f).rng = s.rng := rfl
@[simp] theorem State.updFlt_edge (f : Flt → Flt) : (s.updFlt f).edge = s.edge := rfl
@[simp] theorem State.updFlt_eoa (f : Flt → Flt) : (s.updFlt f).eoa = s.eoa := rfl
@[simp] theorem State.updFlt_cas (f : Flt → Flt) : (s.updFlt f).cas = s.cas := rfl
@[simp] theorem State.updFlt_disp (f : Flt → Flt) : (s.updFlt f).disp = s.disp := rfl
@[simp] theorem State.updFlt_inst (f : Flt → Flt) (n : Fin 128) : (s.updFlt f).inst n = s.inst n := rfl
@[simp] theorem State.updFlt_sq (f : Flt → Flt) (g : Fin 512) : (s.updFlt f).sq g = s.sq g := rfl
@[simp] theorem State.updFlt_cq (f : Flt → Flt) (q : Fin 256) : (s.updFlt f).cq q = s.cq q := rfl

@[simp] theorem State.updRng_pending (f : Rng → Rng) : (s.updRng f).pending = s.pending := rfl
@[simp] theorem State.updRng_now (f : Rng → Rng) : (s.updRng f).now = s.now := rfl
@[simp] theorem State.updRng_free (f : Rng → Rng) : (s.updRng f).free = s.free := rfl
@[simp] theorem State.updRng_pins (f : Rng → Rng) : (s.updRng f).pins = s.pins := rfl
@[simp] theorem State.updRng_pwr (f : Rng → Rng) : (s.updRng f).pwr = s.pwr := rfl
@[simp] theorem State.updRng_sentry (f : Rng → Rng) : (s.updRng f).sentry = s.sentry := rfl
@[simp] theorem State.updRng_tamper (f : Rng → Rng) : (s.updRng f).tamper = s.tamper := rfl
@[simp] theorem State.updRng_vault (f : Rng → Rng) : (s.updRng f).vault = s.vault := rfl
@[simp] theorem State.updRng_life (f : Rng → Rng) : (s.updRng f).life = s.life := rfl
@[simp] theorem State.updRng_keys (f : Rng → Rng) : (s.updRng f).keys = s.keys := rfl
@[simp] theorem State.updRng_insts (f : Rng → Rng) : (s.updRng f).insts = s.insts := rfl
@[simp] theorem State.updRng_sqs (f : Rng → Rng) : (s.updRng f).sqs = s.sqs := rfl
@[simp] theorem State.updRng_cqs (f : Rng → Rng) : (s.updRng f).cqs = s.cqs := rfl
@[simp] theorem State.updRng_jobs (f : Rng → Rng) : (s.updRng f).jobs = s.jobs := rfl
@[simp] theorem State.updRng_units (f : Rng → Rng) : (s.updRng f).units = s.units := rfl
@[simp] theorem State.updRng_fab (f : Rng → Rng) : (s.updRng f).fab = s.fab := rfl
@[simp] theorem State.updRng_irq (f : Rng → Rng) : (s.updRng f).irq = s.irq := rfl
@[simp] theorem State.updRng_rt (f : Rng → Rng) : (s.updRng f).rt = s.rt := rfl
@[simp] theorem State.updRng_cnt (f : Rng → Rng) : (s.updRng f).cnt = s.cnt := rfl
@[simp] theorem State.updRng_dict (f : Rng → Rng) : (s.updRng f).dict = s.dict := rfl
@[simp] theorem State.updRng_cfg (f : Rng → Rng) : (s.updRng f).cfg = s.cfg := rfl
@[simp] theorem State.updRng_jnl (f : Rng → Rng) : (s.updRng f).jnl = s.jnl := rfl
@[simp] theorem State.updRng_card (f : Rng → Rng) : (s.updRng f).card = s.card := rfl
@[simp] theorem State.updRng_flt (f : Rng → Rng) : (s.updRng f).flt = s.flt := rfl
@[simp] theorem State.updRng_rng (f : Rng → Rng) : (s.updRng f).rng = f s.rng := rfl
@[simp] theorem State.updRng_edge (f : Rng → Rng) : (s.updRng f).edge = s.edge := rfl
@[simp] theorem State.updRng_eoa (f : Rng → Rng) : (s.updRng f).eoa = s.eoa := rfl
@[simp] theorem State.updRng_cas (f : Rng → Rng) : (s.updRng f).cas = s.cas := rfl
@[simp] theorem State.updRng_disp (f : Rng → Rng) : (s.updRng f).disp = s.disp := rfl
@[simp] theorem State.updRng_inst (f : Rng → Rng) (n : Fin 128) : (s.updRng f).inst n = s.inst n := rfl
@[simp] theorem State.updRng_sq (f : Rng → Rng) (g : Fin 512) : (s.updRng f).sq g = s.sq g := rfl
@[simp] theorem State.updRng_cq (f : Rng → Rng) (q : Fin 256) : (s.updRng f).cq q = s.cq q := rfl

@[simp] theorem State.updEdge_pending (f : Edge → Edge) : (s.updEdge f).pending = s.pending := rfl
@[simp] theorem State.updEdge_now (f : Edge → Edge) : (s.updEdge f).now = s.now := rfl
@[simp] theorem State.updEdge_free (f : Edge → Edge) : (s.updEdge f).free = s.free := rfl
@[simp] theorem State.updEdge_pins (f : Edge → Edge) : (s.updEdge f).pins = s.pins := rfl
@[simp] theorem State.updEdge_pwr (f : Edge → Edge) : (s.updEdge f).pwr = s.pwr := rfl
@[simp] theorem State.updEdge_sentry (f : Edge → Edge) : (s.updEdge f).sentry = s.sentry := rfl
@[simp] theorem State.updEdge_tamper (f : Edge → Edge) : (s.updEdge f).tamper = s.tamper := rfl
@[simp] theorem State.updEdge_vault (f : Edge → Edge) : (s.updEdge f).vault = s.vault := rfl
@[simp] theorem State.updEdge_life (f : Edge → Edge) : (s.updEdge f).life = s.life := rfl
@[simp] theorem State.updEdge_keys (f : Edge → Edge) : (s.updEdge f).keys = s.keys := rfl
@[simp] theorem State.updEdge_insts (f : Edge → Edge) : (s.updEdge f).insts = s.insts := rfl
@[simp] theorem State.updEdge_sqs (f : Edge → Edge) : (s.updEdge f).sqs = s.sqs := rfl
@[simp] theorem State.updEdge_cqs (f : Edge → Edge) : (s.updEdge f).cqs = s.cqs := rfl
@[simp] theorem State.updEdge_jobs (f : Edge → Edge) : (s.updEdge f).jobs = s.jobs := rfl
@[simp] theorem State.updEdge_units (f : Edge → Edge) : (s.updEdge f).units = s.units := rfl
@[simp] theorem State.updEdge_fab (f : Edge → Edge) : (s.updEdge f).fab = s.fab := rfl
@[simp] theorem State.updEdge_irq (f : Edge → Edge) : (s.updEdge f).irq = s.irq := rfl
@[simp] theorem State.updEdge_rt (f : Edge → Edge) : (s.updEdge f).rt = s.rt := rfl
@[simp] theorem State.updEdge_cnt (f : Edge → Edge) : (s.updEdge f).cnt = s.cnt := rfl
@[simp] theorem State.updEdge_dict (f : Edge → Edge) : (s.updEdge f).dict = s.dict := rfl
@[simp] theorem State.updEdge_cfg (f : Edge → Edge) : (s.updEdge f).cfg = s.cfg := rfl
@[simp] theorem State.updEdge_jnl (f : Edge → Edge) : (s.updEdge f).jnl = s.jnl := rfl
@[simp] theorem State.updEdge_card (f : Edge → Edge) : (s.updEdge f).card = s.card := rfl
@[simp] theorem State.updEdge_flt (f : Edge → Edge) : (s.updEdge f).flt = s.flt := rfl
@[simp] theorem State.updEdge_rng (f : Edge → Edge) : (s.updEdge f).rng = s.rng := rfl
@[simp] theorem State.updEdge_edge (f : Edge → Edge) : (s.updEdge f).edge = f s.edge := rfl
@[simp] theorem State.updEdge_eoa (f : Edge → Edge) : (s.updEdge f).eoa = s.eoa := rfl
@[simp] theorem State.updEdge_cas (f : Edge → Edge) : (s.updEdge f).cas = s.cas := rfl
@[simp] theorem State.updEdge_disp (f : Edge → Edge) : (s.updEdge f).disp = s.disp := rfl
@[simp] theorem State.updEdge_inst (f : Edge → Edge) (n : Fin 128) : (s.updEdge f).inst n = s.inst n := rfl
@[simp] theorem State.updEdge_sq (f : Edge → Edge) (g : Fin 512) : (s.updEdge f).sq g = s.sq g := rfl
@[simp] theorem State.updEdge_cq (f : Edge → Edge) (q : Fin 256) : (s.updEdge f).cq q = s.cq q := rfl

@[simp] theorem State.updEoa_pending (f : Eoa → Eoa) : (s.updEoa f).pending = s.pending := rfl
@[simp] theorem State.updEoa_now (f : Eoa → Eoa) : (s.updEoa f).now = s.now := rfl
@[simp] theorem State.updEoa_free (f : Eoa → Eoa) : (s.updEoa f).free = s.free := rfl
@[simp] theorem State.updEoa_pins (f : Eoa → Eoa) : (s.updEoa f).pins = s.pins := rfl
@[simp] theorem State.updEoa_pwr (f : Eoa → Eoa) : (s.updEoa f).pwr = s.pwr := rfl
@[simp] theorem State.updEoa_sentry (f : Eoa → Eoa) : (s.updEoa f).sentry = s.sentry := rfl
@[simp] theorem State.updEoa_tamper (f : Eoa → Eoa) : (s.updEoa f).tamper = s.tamper := rfl
@[simp] theorem State.updEoa_vault (f : Eoa → Eoa) : (s.updEoa f).vault = s.vault := rfl
@[simp] theorem State.updEoa_life (f : Eoa → Eoa) : (s.updEoa f).life = s.life := rfl
@[simp] theorem State.updEoa_keys (f : Eoa → Eoa) : (s.updEoa f).keys = s.keys := rfl
@[simp] theorem State.updEoa_insts (f : Eoa → Eoa) : (s.updEoa f).insts = s.insts := rfl
@[simp] theorem State.updEoa_sqs (f : Eoa → Eoa) : (s.updEoa f).sqs = s.sqs := rfl
@[simp] theorem State.updEoa_cqs (f : Eoa → Eoa) : (s.updEoa f).cqs = s.cqs := rfl
@[simp] theorem State.updEoa_jobs (f : Eoa → Eoa) : (s.updEoa f).jobs = s.jobs := rfl
@[simp] theorem State.updEoa_units (f : Eoa → Eoa) : (s.updEoa f).units = s.units := rfl
@[simp] theorem State.updEoa_fab (f : Eoa → Eoa) : (s.updEoa f).fab = s.fab := rfl
@[simp] theorem State.updEoa_irq (f : Eoa → Eoa) : (s.updEoa f).irq = s.irq := rfl
@[simp] theorem State.updEoa_rt (f : Eoa → Eoa) : (s.updEoa f).rt = s.rt := rfl
@[simp] theorem State.updEoa_cnt (f : Eoa → Eoa) : (s.updEoa f).cnt = s.cnt := rfl
@[simp] theorem State.updEoa_dict (f : Eoa → Eoa) : (s.updEoa f).dict = s.dict := rfl
@[simp] theorem State.updEoa_cfg (f : Eoa → Eoa) : (s.updEoa f).cfg = s.cfg := rfl
@[simp] theorem State.updEoa_jnl (f : Eoa → Eoa) : (s.updEoa f).jnl = s.jnl := rfl
@[simp] theorem State.updEoa_card (f : Eoa → Eoa) : (s.updEoa f).card = s.card := rfl
@[simp] theorem State.updEoa_flt (f : Eoa → Eoa) : (s.updEoa f).flt = s.flt := rfl
@[simp] theorem State.updEoa_rng (f : Eoa → Eoa) : (s.updEoa f).rng = s.rng := rfl
@[simp] theorem State.updEoa_edge (f : Eoa → Eoa) : (s.updEoa f).edge = s.edge := rfl
@[simp] theorem State.updEoa_eoa (f : Eoa → Eoa) : (s.updEoa f).eoa = f s.eoa := rfl
@[simp] theorem State.updEoa_cas (f : Eoa → Eoa) : (s.updEoa f).cas = s.cas := rfl
@[simp] theorem State.updEoa_disp (f : Eoa → Eoa) : (s.updEoa f).disp = s.disp := rfl
@[simp] theorem State.updEoa_inst (f : Eoa → Eoa) (n : Fin 128) : (s.updEoa f).inst n = s.inst n := rfl
@[simp] theorem State.updEoa_sq (f : Eoa → Eoa) (g : Fin 512) : (s.updEoa f).sq g = s.sq g := rfl
@[simp] theorem State.updEoa_cq (f : Eoa → Eoa) (q : Fin 256) : (s.updEoa f).cq q = s.cq q := rfl

@[simp] theorem State.updCas_pending (f : Cas → Cas) : (s.updCas f).pending = s.pending := rfl
@[simp] theorem State.updCas_now (f : Cas → Cas) : (s.updCas f).now = s.now := rfl
@[simp] theorem State.updCas_free (f : Cas → Cas) : (s.updCas f).free = s.free := rfl
@[simp] theorem State.updCas_pins (f : Cas → Cas) : (s.updCas f).pins = s.pins := rfl
@[simp] theorem State.updCas_pwr (f : Cas → Cas) : (s.updCas f).pwr = s.pwr := rfl
@[simp] theorem State.updCas_sentry (f : Cas → Cas) : (s.updCas f).sentry = s.sentry := rfl
@[simp] theorem State.updCas_tamper (f : Cas → Cas) : (s.updCas f).tamper = s.tamper := rfl
@[simp] theorem State.updCas_vault (f : Cas → Cas) : (s.updCas f).vault = s.vault := rfl
@[simp] theorem State.updCas_life (f : Cas → Cas) : (s.updCas f).life = s.life := rfl
@[simp] theorem State.updCas_keys (f : Cas → Cas) : (s.updCas f).keys = s.keys := rfl
@[simp] theorem State.updCas_insts (f : Cas → Cas) : (s.updCas f).insts = s.insts := rfl
@[simp] theorem State.updCas_sqs (f : Cas → Cas) : (s.updCas f).sqs = s.sqs := rfl
@[simp] theorem State.updCas_cqs (f : Cas → Cas) : (s.updCas f).cqs = s.cqs := rfl
@[simp] theorem State.updCas_jobs (f : Cas → Cas) : (s.updCas f).jobs = s.jobs := rfl
@[simp] theorem State.updCas_units (f : Cas → Cas) : (s.updCas f).units = s.units := rfl
@[simp] theorem State.updCas_fab (f : Cas → Cas) : (s.updCas f).fab = s.fab := rfl
@[simp] theorem State.updCas_irq (f : Cas → Cas) : (s.updCas f).irq = s.irq := rfl
@[simp] theorem State.updCas_rt (f : Cas → Cas) : (s.updCas f).rt = s.rt := rfl
@[simp] theorem State.updCas_cnt (f : Cas → Cas) : (s.updCas f).cnt = s.cnt := rfl
@[simp] theorem State.updCas_dict (f : Cas → Cas) : (s.updCas f).dict = s.dict := rfl
@[simp] theorem State.updCas_cfg (f : Cas → Cas) : (s.updCas f).cfg = s.cfg := rfl
@[simp] theorem State.updCas_jnl (f : Cas → Cas) : (s.updCas f).jnl = s.jnl := rfl
@[simp] theorem State.updCas_card (f : Cas → Cas) : (s.updCas f).card = s.card := rfl
@[simp] theorem State.updCas_flt (f : Cas → Cas) : (s.updCas f).flt = s.flt := rfl
@[simp] theorem State.updCas_rng (f : Cas → Cas) : (s.updCas f).rng = s.rng := rfl
@[simp] theorem State.updCas_edge (f : Cas → Cas) : (s.updCas f).edge = s.edge := rfl
@[simp] theorem State.updCas_eoa (f : Cas → Cas) : (s.updCas f).eoa = s.eoa := rfl
@[simp] theorem State.updCas_cas (f : Cas → Cas) : (s.updCas f).cas = f s.cas := rfl
@[simp] theorem State.updCas_disp (f : Cas → Cas) : (s.updCas f).disp = s.disp := rfl
@[simp] theorem State.updCas_inst (f : Cas → Cas) (n : Fin 128) : (s.updCas f).inst n = s.inst n := rfl
@[simp] theorem State.updCas_sq (f : Cas → Cas) (g : Fin 512) : (s.updCas f).sq g = s.sq g := rfl
@[simp] theorem State.updCas_cq (f : Cas → Cas) (q : Fin 256) : (s.updCas f).cq q = s.cq q := rfl

@[simp] theorem State.updDisp_pending (f : Disp → Disp) : (s.updDisp f).pending = s.pending := rfl
@[simp] theorem State.updDisp_now (f : Disp → Disp) : (s.updDisp f).now = s.now := rfl
@[simp] theorem State.updDisp_free (f : Disp → Disp) : (s.updDisp f).free = s.free := rfl
@[simp] theorem State.updDisp_pins (f : Disp → Disp) : (s.updDisp f).pins = s.pins := rfl
@[simp] theorem State.updDisp_pwr (f : Disp → Disp) : (s.updDisp f).pwr = s.pwr := rfl
@[simp] theorem State.updDisp_sentry (f : Disp → Disp) : (s.updDisp f).sentry = s.sentry := rfl
@[simp] theorem State.updDisp_tamper (f : Disp → Disp) : (s.updDisp f).tamper = s.tamper := rfl
@[simp] theorem State.updDisp_vault (f : Disp → Disp) : (s.updDisp f).vault = s.vault := rfl
@[simp] theorem State.updDisp_life (f : Disp → Disp) : (s.updDisp f).life = s.life := rfl
@[simp] theorem State.updDisp_keys (f : Disp → Disp) : (s.updDisp f).keys = s.keys := rfl
@[simp] theorem State.updDisp_insts (f : Disp → Disp) : (s.updDisp f).insts = s.insts := rfl
@[simp] theorem State.updDisp_sqs (f : Disp → Disp) : (s.updDisp f).sqs = s.sqs := rfl
@[simp] theorem State.updDisp_cqs (f : Disp → Disp) : (s.updDisp f).cqs = s.cqs := rfl
@[simp] theorem State.updDisp_jobs (f : Disp → Disp) : (s.updDisp f).jobs = s.jobs := rfl
@[simp] theorem State.updDisp_units (f : Disp → Disp) : (s.updDisp f).units = s.units := rfl
@[simp] theorem State.updDisp_fab (f : Disp → Disp) : (s.updDisp f).fab = s.fab := rfl
@[simp] theorem State.updDisp_irq (f : Disp → Disp) : (s.updDisp f).irq = s.irq := rfl
@[simp] theorem State.updDisp_rt (f : Disp → Disp) : (s.updDisp f).rt = s.rt := rfl
@[simp] theorem State.updDisp_cnt (f : Disp → Disp) : (s.updDisp f).cnt = s.cnt := rfl
@[simp] theorem State.updDisp_dict (f : Disp → Disp) : (s.updDisp f).dict = s.dict := rfl
@[simp] theorem State.updDisp_cfg (f : Disp → Disp) : (s.updDisp f).cfg = s.cfg := rfl
@[simp] theorem State.updDisp_jnl (f : Disp → Disp) : (s.updDisp f).jnl = s.jnl := rfl
@[simp] theorem State.updDisp_card (f : Disp → Disp) : (s.updDisp f).card = s.card := rfl
@[simp] theorem State.updDisp_flt (f : Disp → Disp) : (s.updDisp f).flt = s.flt := rfl
@[simp] theorem State.updDisp_rng (f : Disp → Disp) : (s.updDisp f).rng = s.rng := rfl
@[simp] theorem State.updDisp_edge (f : Disp → Disp) : (s.updDisp f).edge = s.edge := rfl
@[simp] theorem State.updDisp_eoa (f : Disp → Disp) : (s.updDisp f).eoa = s.eoa := rfl
@[simp] theorem State.updDisp_cas (f : Disp → Disp) : (s.updDisp f).cas = s.cas := rfl
@[simp] theorem State.updDisp_disp (f : Disp → Disp) : (s.updDisp f).disp = f s.disp := rfl
@[simp] theorem State.updDisp_inst (f : Disp → Disp) (n : Fin 128) : (s.updDisp f).inst n = s.inst n := rfl
@[simp] theorem State.updDisp_sq (f : Disp → Disp) (g : Fin 512) : (s.updDisp f).sq g = s.sq g := rfl
@[simp] theorem State.updDisp_cq (f : Disp → Disp) (q : Fin 256) : (s.updDisp f).cq q = s.cq q := rfl

@[simp] theorem State.updInst_pending (n : Fin 128) (f : Inst → Inst) : (s.updInst n f).pending = s.pending := rfl
@[simp] theorem State.updInst_now (n : Fin 128) (f : Inst → Inst) : (s.updInst n f).now = s.now := rfl
@[simp] theorem State.updInst_free (n : Fin 128) (f : Inst → Inst) : (s.updInst n f).free = s.free := rfl
@[simp] theorem State.updInst_pins (n : Fin 128) (f : Inst → Inst) : (s.updInst n f).pins = s.pins := rfl
@[simp] theorem State.updInst_pwr (n : Fin 128) (f : Inst → Inst) : (s.updInst n f).pwr = s.pwr := rfl
@[simp] theorem State.updInst_sentry (n : Fin 128) (f : Inst → Inst) : (s.updInst n f).sentry = s.sentry := rfl
@[simp] theorem State.updInst_tamper (n : Fin 128) (f : Inst → Inst) : (s.updInst n f).tamper = s.tamper := rfl
@[simp] theorem State.updInst_vault (n : Fin 128) (f : Inst → Inst) : (s.updInst n f).vault = s.vault := rfl
@[simp] theorem State.updInst_life (n : Fin 128) (f : Inst → Inst) : (s.updInst n f).life = s.life := rfl
@[simp] theorem State.updInst_keys (n : Fin 128) (f : Inst → Inst) : (s.updInst n f).keys = s.keys := rfl
@[simp] theorem State.updInst_sqs (n : Fin 128) (f : Inst → Inst) : (s.updInst n f).sqs = s.sqs := rfl
@[simp] theorem State.updInst_cqs (n : Fin 128) (f : Inst → Inst) : (s.updInst n f).cqs = s.cqs := rfl
@[simp] theorem State.updInst_jobs (n : Fin 128) (f : Inst → Inst) : (s.updInst n f).jobs = s.jobs := rfl
@[simp] theorem State.updInst_units (n : Fin 128) (f : Inst → Inst) : (s.updInst n f).units = s.units := rfl
@[simp] theorem State.updInst_fab (n : Fin 128) (f : Inst → Inst) : (s.updInst n f).fab = s.fab := rfl
@[simp] theorem State.updInst_irq (n : Fin 128) (f : Inst → Inst) : (s.updInst n f).irq = s.irq := rfl
@[simp] theorem State.updInst_rt (n : Fin 128) (f : Inst → Inst) : (s.updInst n f).rt = s.rt := rfl
@[simp] theorem State.updInst_cnt (n : Fin 128) (f : Inst → Inst) : (s.updInst n f).cnt = s.cnt := rfl
@[simp] theorem State.updInst_dict (n : Fin 128) (f : Inst → Inst) : (s.updInst n f).dict = s.dict := rfl
@[simp] theorem State.updInst_cfg (n : Fin 128) (f : Inst → Inst) : (s.updInst n f).cfg = s.cfg := rfl
@[simp] theorem State.updInst_jnl (n : Fin 128) (f : Inst → Inst) : (s.updInst n f).jnl = s.jnl := rfl
@[simp] theorem State.updInst_card (n : Fin 128) (f : Inst → Inst) : (s.updInst n f).card = s.card := rfl
@[simp] theorem State.updInst_flt (n : Fin 128) (f : Inst → Inst) : (s.updInst n f).flt = s.flt := rfl
@[simp] theorem State.updInst_rng (n : Fin 128) (f : Inst → Inst) : (s.updInst n f).rng = s.rng := rfl
@[simp] theorem State.updInst_edge (n : Fin 128) (f : Inst → Inst) : (s.updInst n f).edge = s.edge := rfl
@[simp] theorem State.updInst_eoa (n : Fin 128) (f : Inst → Inst) : (s.updInst n f).eoa = s.eoa := rfl
@[simp] theorem State.updInst_cas (n : Fin 128) (f : Inst → Inst) : (s.updInst n f).cas = s.cas := rfl
@[simp] theorem State.updInst_disp (n : Fin 128) (f : Inst → Inst) : (s.updInst n f).disp = s.disp := rfl
@[simp] theorem State.updInst_sq (n : Fin 128) (f : Inst → Inst) (g : Fin 512) : (s.updInst n f).sq g = s.sq g := rfl
@[simp] theorem State.updInst_cq (n : Fin 128) (f : Inst → Inst) (q : Fin 256) : (s.updInst n f).cq q = s.cq q := rfl

@[simp] theorem State.updInst_same (n : Fin 128) (f : Inst → Inst) : (s.updInst n f).inst n = f (s.inst n) := by
  simp [State.updInst, State.inst]
theorem State.updInst_other (n m : Fin 128) (f : Inst → Inst) (h : m ≠ n) : (s.updInst n f).inst m = s.inst m := by
  have hv : n.val ≠ m.val := fun e => h (Fin.ext e.symm)
  simp [State.updInst, State.inst, hv]
theorem State.updInst_at (n m : Fin 128) (f : Inst → Inst) :
    (s.updInst n f).inst m = if m = n then f (s.inst m) else s.inst m := by
  by_cases h : m = n
  · subst h; simp
  · simp [h, State.updInst_other]

@[simp] theorem State.updSq_pending (g : Fin 512) (f : Sq → Sq) : (s.updSq g f).pending = s.pending := rfl
@[simp] theorem State.updSq_now (g : Fin 512) (f : Sq → Sq) : (s.updSq g f).now = s.now := rfl
@[simp] theorem State.updSq_free (g : Fin 512) (f : Sq → Sq) : (s.updSq g f).free = s.free := rfl
@[simp] theorem State.updSq_pins (g : Fin 512) (f : Sq → Sq) : (s.updSq g f).pins = s.pins := rfl
@[simp] theorem State.updSq_pwr (g : Fin 512) (f : Sq → Sq) : (s.updSq g f).pwr = s.pwr := rfl
@[simp] theorem State.updSq_sentry (g : Fin 512) (f : Sq → Sq) : (s.updSq g f).sentry = s.sentry := rfl
@[simp] theorem State.updSq_tamper (g : Fin 512) (f : Sq → Sq) : (s.updSq g f).tamper = s.tamper := rfl
@[simp] theorem State.updSq_vault (g : Fin 512) (f : Sq → Sq) : (s.updSq g f).vault = s.vault := rfl
@[simp] theorem State.updSq_life (g : Fin 512) (f : Sq → Sq) : (s.updSq g f).life = s.life := rfl
@[simp] theorem State.updSq_keys (g : Fin 512) (f : Sq → Sq) : (s.updSq g f).keys = s.keys := rfl
@[simp] theorem State.updSq_insts (g : Fin 512) (f : Sq → Sq) : (s.updSq g f).insts = s.insts := rfl
@[simp] theorem State.updSq_cqs (g : Fin 512) (f : Sq → Sq) : (s.updSq g f).cqs = s.cqs := rfl
@[simp] theorem State.updSq_jobs (g : Fin 512) (f : Sq → Sq) : (s.updSq g f).jobs = s.jobs := rfl
@[simp] theorem State.updSq_units (g : Fin 512) (f : Sq → Sq) : (s.updSq g f).units = s.units := rfl
@[simp] theorem State.updSq_fab (g : Fin 512) (f : Sq → Sq) : (s.updSq g f).fab = s.fab := rfl
@[simp] theorem State.updSq_irq (g : Fin 512) (f : Sq → Sq) : (s.updSq g f).irq = s.irq := rfl
@[simp] theorem State.updSq_rt (g : Fin 512) (f : Sq → Sq) : (s.updSq g f).rt = s.rt := rfl
@[simp] theorem State.updSq_cnt (g : Fin 512) (f : Sq → Sq) : (s.updSq g f).cnt = s.cnt := rfl
@[simp] theorem State.updSq_dict (g : Fin 512) (f : Sq → Sq) : (s.updSq g f).dict = s.dict := rfl
@[simp] theorem State.updSq_cfg (g : Fin 512) (f : Sq → Sq) : (s.updSq g f).cfg = s.cfg := rfl
@[simp] theorem State.updSq_jnl (g : Fin 512) (f : Sq → Sq) : (s.updSq g f).jnl = s.jnl := rfl
@[simp] theorem State.updSq_card (g : Fin 512) (f : Sq → Sq) : (s.updSq g f).card = s.card := rfl
@[simp] theorem State.updSq_flt (g : Fin 512) (f : Sq → Sq) : (s.updSq g f).flt = s.flt := rfl
@[simp] theorem State.updSq_rng (g : Fin 512) (f : Sq → Sq) : (s.updSq g f).rng = s.rng := rfl
@[simp] theorem State.updSq_edge (g : Fin 512) (f : Sq → Sq) : (s.updSq g f).edge = s.edge := rfl
@[simp] theorem State.updSq_eoa (g : Fin 512) (f : Sq → Sq) : (s.updSq g f).eoa = s.eoa := rfl
@[simp] theorem State.updSq_cas (g : Fin 512) (f : Sq → Sq) : (s.updSq g f).cas = s.cas := rfl
@[simp] theorem State.updSq_disp (g : Fin 512) (f : Sq → Sq) : (s.updSq g f).disp = s.disp := rfl
@[simp] theorem State.updSq_inst (g : Fin 512) (f : Sq → Sq) (m : Fin 128) : (s.updSq g f).inst m = s.inst m := rfl
@[simp] theorem State.updSq_cq (g : Fin 512) (f : Sq → Sq) (q : Fin 256) : (s.updSq g f).cq q = s.cq q := rfl

@[simp] theorem State.updSq_same (g : Fin 512) (f : Sq → Sq) : (s.updSq g f).sq g = f (s.sq g) := by
  simp [State.updSq, State.sq]
theorem State.updSq_other (g m : Fin 512) (f : Sq → Sq) (h : m ≠ g) : (s.updSq g f).sq m = s.sq m := by
  have hv : g.val ≠ m.val := fun e => h (Fin.ext e.symm)
  simp [State.updSq, State.sq, hv]
theorem State.updSq_at (g m : Fin 512) (f : Sq → Sq) :
    (s.updSq g f).sq m = if m = g then f (s.sq m) else s.sq m := by
  by_cases h : m = g
  · subst h; simp
  · simp [h, State.updSq_other]

@[simp] theorem State.updCq_pending (q : Fin 256) (f : Cq → Cq) : (s.updCq q f).pending = s.pending := rfl
@[simp] theorem State.updCq_now (q : Fin 256) (f : Cq → Cq) : (s.updCq q f).now = s.now := rfl
@[simp] theorem State.updCq_free (q : Fin 256) (f : Cq → Cq) : (s.updCq q f).free = s.free := rfl
@[simp] theorem State.updCq_pins (q : Fin 256) (f : Cq → Cq) : (s.updCq q f).pins = s.pins := rfl
@[simp] theorem State.updCq_pwr (q : Fin 256) (f : Cq → Cq) : (s.updCq q f).pwr = s.pwr := rfl
@[simp] theorem State.updCq_sentry (q : Fin 256) (f : Cq → Cq) : (s.updCq q f).sentry = s.sentry := rfl
@[simp] theorem State.updCq_tamper (q : Fin 256) (f : Cq → Cq) : (s.updCq q f).tamper = s.tamper := rfl
@[simp] theorem State.updCq_vault (q : Fin 256) (f : Cq → Cq) : (s.updCq q f).vault = s.vault := rfl
@[simp] theorem State.updCq_life (q : Fin 256) (f : Cq → Cq) : (s.updCq q f).life = s.life := rfl
@[simp] theorem State.updCq_keys (q : Fin 256) (f : Cq → Cq) : (s.updCq q f).keys = s.keys := rfl
@[simp] theorem State.updCq_insts (q : Fin 256) (f : Cq → Cq) : (s.updCq q f).insts = s.insts := rfl
@[simp] theorem State.updCq_sqs (q : Fin 256) (f : Cq → Cq) : (s.updCq q f).sqs = s.sqs := rfl
@[simp] theorem State.updCq_jobs (q : Fin 256) (f : Cq → Cq) : (s.updCq q f).jobs = s.jobs := rfl
@[simp] theorem State.updCq_units (q : Fin 256) (f : Cq → Cq) : (s.updCq q f).units = s.units := rfl
@[simp] theorem State.updCq_fab (q : Fin 256) (f : Cq → Cq) : (s.updCq q f).fab = s.fab := rfl
@[simp] theorem State.updCq_irq (q : Fin 256) (f : Cq → Cq) : (s.updCq q f).irq = s.irq := rfl
@[simp] theorem State.updCq_rt (q : Fin 256) (f : Cq → Cq) : (s.updCq q f).rt = s.rt := rfl
@[simp] theorem State.updCq_cnt (q : Fin 256) (f : Cq → Cq) : (s.updCq q f).cnt = s.cnt := rfl
@[simp] theorem State.updCq_dict (q : Fin 256) (f : Cq → Cq) : (s.updCq q f).dict = s.dict := rfl
@[simp] theorem State.updCq_cfg (q : Fin 256) (f : Cq → Cq) : (s.updCq q f).cfg = s.cfg := rfl
@[simp] theorem State.updCq_jnl (q : Fin 256) (f : Cq → Cq) : (s.updCq q f).jnl = s.jnl := rfl
@[simp] theorem State.updCq_card (q : Fin 256) (f : Cq → Cq) : (s.updCq q f).card = s.card := rfl
@[simp] theorem State.updCq_flt (q : Fin 256) (f : Cq → Cq) : (s.updCq q f).flt = s.flt := rfl
@[simp] theorem State.updCq_rng (q : Fin 256) (f : Cq → Cq) : (s.updCq q f).rng = s.rng := rfl
@[simp] theorem State.updCq_edge (q : Fin 256) (f : Cq → Cq) : (s.updCq q f).edge = s.edge := rfl
@[simp] theorem State.updCq_eoa (q : Fin 256) (f : Cq → Cq) : (s.updCq q f).eoa = s.eoa := rfl
@[simp] theorem State.updCq_cas (q : Fin 256) (f : Cq → Cq) : (s.updCq q f).cas = s.cas := rfl
@[simp] theorem State.updCq_disp (q : Fin 256) (f : Cq → Cq) : (s.updCq q f).disp = s.disp := rfl
@[simp] theorem State.updCq_inst (q : Fin 256) (f : Cq → Cq) (m : Fin 128) : (s.updCq q f).inst m = s.inst m := rfl
@[simp] theorem State.updCq_sq (q : Fin 256) (f : Cq → Cq) (g : Fin 512) : (s.updCq q f).sq g = s.sq g := rfl

@[simp] theorem State.updCq_same (q : Fin 256) (f : Cq → Cq) : (s.updCq q f).cq q = f (s.cq q) := by
  simp [State.updCq, State.cq]
theorem State.updCq_other (q m : Fin 256) (f : Cq → Cq) (h : m ≠ q) : (s.updCq q f).cq m = s.cq m := by
  have hv : q.val ≠ m.val := fun e => h (Fin.ext e.symm)
  simp [State.updCq, State.cq, hv]
theorem State.updCq_at (q m : Fin 256) (f : Cq → Cq) :
    (s.updCq q f).cq m = if m = q then f (s.cq m) else s.cq m := by
  by_cases h : m = q
  · subst h; simp
  · simp [h, State.updCq_other]

@[simp] theorem State.setJobs_pending (js : List Job) : (s.setJobs js).pending = s.pending := rfl
@[simp] theorem State.updJob_pending (i : Nat) (f : Job → Job) : (s.updJob i f).pending = s.pending := rfl
@[simp] theorem State.updEng_pending (e : Fin 36) (f : Engine → Engine) : (s.updEng e f).pending = s.pending := rfl
@[simp] theorem State.setJobs_now (js : List Job) : (s.setJobs js).now = s.now := rfl
@[simp] theorem State.updJob_now (i : Nat) (f : Job → Job) : (s.updJob i f).now = s.now := rfl
@[simp] theorem State.updEng_now (e : Fin 36) (f : Engine → Engine) : (s.updEng e f).now = s.now := rfl
@[simp] theorem State.setJobs_free (js : List Job) : (s.setJobs js).free = s.free := rfl
@[simp] theorem State.updJob_free (i : Nat) (f : Job → Job) : (s.updJob i f).free = s.free := rfl
@[simp] theorem State.updEng_free (e : Fin 36) (f : Engine → Engine) : (s.updEng e f).free = s.free := rfl
@[simp] theorem State.setJobs_pins (js : List Job) : (s.setJobs js).pins = s.pins := rfl
@[simp] theorem State.updJob_pins (i : Nat) (f : Job → Job) : (s.updJob i f).pins = s.pins := rfl
@[simp] theorem State.updEng_pins (e : Fin 36) (f : Engine → Engine) : (s.updEng e f).pins = s.pins := rfl
@[simp] theorem State.setJobs_pwr (js : List Job) : (s.setJobs js).pwr = s.pwr := rfl
@[simp] theorem State.updJob_pwr (i : Nat) (f : Job → Job) : (s.updJob i f).pwr = s.pwr := rfl
@[simp] theorem State.updEng_pwr (e : Fin 36) (f : Engine → Engine) : (s.updEng e f).pwr = s.pwr := rfl
@[simp] theorem State.setJobs_sentry (js : List Job) : (s.setJobs js).sentry = s.sentry := rfl
@[simp] theorem State.updJob_sentry (i : Nat) (f : Job → Job) : (s.updJob i f).sentry = s.sentry := rfl
@[simp] theorem State.updEng_sentry (e : Fin 36) (f : Engine → Engine) : (s.updEng e f).sentry = s.sentry := rfl
@[simp] theorem State.setJobs_tamper (js : List Job) : (s.setJobs js).tamper = s.tamper := rfl
@[simp] theorem State.updJob_tamper (i : Nat) (f : Job → Job) : (s.updJob i f).tamper = s.tamper := rfl
@[simp] theorem State.updEng_tamper (e : Fin 36) (f : Engine → Engine) : (s.updEng e f).tamper = s.tamper := rfl
@[simp] theorem State.setJobs_vault (js : List Job) : (s.setJobs js).vault = s.vault := rfl
@[simp] theorem State.updJob_vault (i : Nat) (f : Job → Job) : (s.updJob i f).vault = s.vault := rfl
@[simp] theorem State.updEng_vault (e : Fin 36) (f : Engine → Engine) : (s.updEng e f).vault = s.vault := rfl
@[simp] theorem State.setJobs_life (js : List Job) : (s.setJobs js).life = s.life := rfl
@[simp] theorem State.updJob_life (i : Nat) (f : Job → Job) : (s.updJob i f).life = s.life := rfl
@[simp] theorem State.updEng_life (e : Fin 36) (f : Engine → Engine) : (s.updEng e f).life = s.life := rfl
@[simp] theorem State.setJobs_keys (js : List Job) : (s.setJobs js).keys = s.keys := rfl
@[simp] theorem State.updJob_keys (i : Nat) (f : Job → Job) : (s.updJob i f).keys = s.keys := rfl
@[simp] theorem State.updEng_keys (e : Fin 36) (f : Engine → Engine) : (s.updEng e f).keys = s.keys := rfl
@[simp] theorem State.setJobs_insts (js : List Job) : (s.setJobs js).insts = s.insts := rfl
@[simp] theorem State.updJob_insts (i : Nat) (f : Job → Job) : (s.updJob i f).insts = s.insts := rfl
@[simp] theorem State.updEng_insts (e : Fin 36) (f : Engine → Engine) : (s.updEng e f).insts = s.insts := rfl
@[simp] theorem State.setJobs_sqs (js : List Job) : (s.setJobs js).sqs = s.sqs := rfl
@[simp] theorem State.updJob_sqs (i : Nat) (f : Job → Job) : (s.updJob i f).sqs = s.sqs := rfl
@[simp] theorem State.updEng_sqs (e : Fin 36) (f : Engine → Engine) : (s.updEng e f).sqs = s.sqs := rfl
@[simp] theorem State.setJobs_cqs (js : List Job) : (s.setJobs js).cqs = s.cqs := rfl
@[simp] theorem State.updJob_cqs (i : Nat) (f : Job → Job) : (s.updJob i f).cqs = s.cqs := rfl
@[simp] theorem State.updEng_cqs (e : Fin 36) (f : Engine → Engine) : (s.updEng e f).cqs = s.cqs := rfl
@[simp] theorem State.updEng_jobs (e : Fin 36) (f : Engine → Engine) : (s.updEng e f).jobs = s.jobs := rfl
@[simp] theorem State.setJobs_units (js : List Job) : (s.setJobs js).units = s.units := rfl
@[simp] theorem State.updJob_units (i : Nat) (f : Job → Job) : (s.updJob i f).units = s.units := rfl
@[simp] theorem State.setJobs_fab (js : List Job) : (s.setJobs js).fab = s.fab := rfl
@[simp] theorem State.updJob_fab (i : Nat) (f : Job → Job) : (s.updJob i f).fab = s.fab := rfl
@[simp] theorem State.updEng_fab (e : Fin 36) (f : Engine → Engine) : (s.updEng e f).fab = s.fab := rfl
@[simp] theorem State.setJobs_irq (js : List Job) : (s.setJobs js).irq = s.irq := rfl
@[simp] theorem State.updJob_irq (i : Nat) (f : Job → Job) : (s.updJob i f).irq = s.irq := rfl
@[simp] theorem State.updEng_irq (e : Fin 36) (f : Engine → Engine) : (s.updEng e f).irq = s.irq := rfl
@[simp] theorem State.setJobs_rt (js : List Job) : (s.setJobs js).rt = s.rt := rfl
@[simp] theorem State.updJob_rt (i : Nat) (f : Job → Job) : (s.updJob i f).rt = s.rt := rfl
@[simp] theorem State.updEng_rt (e : Fin 36) (f : Engine → Engine) : (s.updEng e f).rt = s.rt := rfl
@[simp] theorem State.setJobs_cnt (js : List Job) : (s.setJobs js).cnt = s.cnt := rfl
@[simp] theorem State.updJob_cnt (i : Nat) (f : Job → Job) : (s.updJob i f).cnt = s.cnt := rfl
@[simp] theorem State.updEng_cnt (e : Fin 36) (f : Engine → Engine) : (s.updEng e f).cnt = s.cnt := rfl
@[simp] theorem State.setJobs_dict (js : List Job) : (s.setJobs js).dict = s.dict := rfl
@[simp] theorem State.updJob_dict (i : Nat) (f : Job → Job) : (s.updJob i f).dict = s.dict := rfl
@[simp] theorem State.updEng_dict (e : Fin 36) (f : Engine → Engine) : (s.updEng e f).dict = s.dict := rfl
@[simp] theorem State.setJobs_cfg (js : List Job) : (s.setJobs js).cfg = s.cfg := rfl
@[simp] theorem State.updJob_cfg (i : Nat) (f : Job → Job) : (s.updJob i f).cfg = s.cfg := rfl
@[simp] theorem State.updEng_cfg (e : Fin 36) (f : Engine → Engine) : (s.updEng e f).cfg = s.cfg := rfl
@[simp] theorem State.setJobs_jnl (js : List Job) : (s.setJobs js).jnl = s.jnl := rfl
@[simp] theorem State.updJob_jnl (i : Nat) (f : Job → Job) : (s.updJob i f).jnl = s.jnl := rfl
@[simp] theorem State.updEng_jnl (e : Fin 36) (f : Engine → Engine) : (s.updEng e f).jnl = s.jnl := rfl
@[simp] theorem State.setJobs_card (js : List Job) : (s.setJobs js).card = s.card := rfl
@[simp] theorem State.updJob_card (i : Nat) (f : Job → Job) : (s.updJob i f).card = s.card := rfl
@[simp] theorem State.updEng_card (e : Fin 36) (f : Engine → Engine) : (s.updEng e f).card = s.card := rfl
@[simp] theorem State.setJobs_flt (js : List Job) : (s.setJobs js).flt = s.flt := rfl
@[simp] theorem State.updJob_flt (i : Nat) (f : Job → Job) : (s.updJob i f).flt = s.flt := rfl
@[simp] theorem State.updEng_flt (e : Fin 36) (f : Engine → Engine) : (s.updEng e f).flt = s.flt := rfl
@[simp] theorem State.setJobs_rng (js : List Job) : (s.setJobs js).rng = s.rng := rfl
@[simp] theorem State.updJob_rng (i : Nat) (f : Job → Job) : (s.updJob i f).rng = s.rng := rfl
@[simp] theorem State.updEng_rng (e : Fin 36) (f : Engine → Engine) : (s.updEng e f).rng = s.rng := rfl
@[simp] theorem State.setJobs_edge (js : List Job) : (s.setJobs js).edge = s.edge := rfl
@[simp] theorem State.updJob_edge (i : Nat) (f : Job → Job) : (s.updJob i f).edge = s.edge := rfl
@[simp] theorem State.updEng_edge (e : Fin 36) (f : Engine → Engine) : (s.updEng e f).edge = s.edge := rfl
@[simp] theorem State.setJobs_eoa (js : List Job) : (s.setJobs js).eoa = s.eoa := rfl
@[simp] theorem State.updJob_eoa (i : Nat) (f : Job → Job) : (s.updJob i f).eoa = s.eoa := rfl
@[simp] theorem State.updEng_eoa (e : Fin 36) (f : Engine → Engine) : (s.updEng e f).eoa = s.eoa := rfl
@[simp] theorem State.setJobs_cas (js : List Job) : (s.setJobs js).cas = s.cas := rfl
@[simp] theorem State.updJob_cas (i : Nat) (f : Job → Job) : (s.updJob i f).cas = s.cas := rfl
@[simp] theorem State.updEng_cas (e : Fin 36) (f : Engine → Engine) : (s.updEng e f).cas = s.cas := rfl
@[simp] theorem State.setJobs_disp (js : List Job) : (s.setJobs js).disp = s.disp := rfl
@[simp] theorem State.updJob_disp (i : Nat) (f : Job → Job) : (s.updJob i f).disp = s.disp := rfl
@[simp] theorem State.updEng_disp (e : Fin 36) (f : Engine → Engine) : (s.updEng e f).disp = s.disp := rfl
@[simp] theorem State.setJobs_jobs (js : List Job) : (s.setJobs js).jobs = js := rfl
@[simp] theorem State.setJobs_inst (js : List Job) (m : Fin 128) : (s.setJobs js).inst m = s.inst m := rfl
@[simp] theorem State.updJob_inst (i : Nat) (f : Job → Job) (m : Fin 128) : (s.updJob i f).inst m = s.inst m := rfl
@[simp] theorem State.updEng_inst (e : Fin 36) (f : Engine → Engine) (m : Fin 128) : (s.updEng e f).inst m = s.inst m := rfl
@[simp] theorem State.setJobs_sq (js : List Job) (g : Fin 512) : (s.setJobs js).sq g = s.sq g := rfl
@[simp] theorem State.updJob_sq (i : Nat) (f : Job → Job) (g : Fin 512) : (s.updJob i f).sq g = s.sq g := rfl
@[simp] theorem State.updEng_sq (e : Fin 36) (f : Engine → Engine) (g : Fin 512) : (s.updEng e f).sq g = s.sq g := rfl
@[simp] theorem State.setJobs_cq (js : List Job) (q : Fin 256) : (s.setJobs js).cq q = s.cq q := rfl
@[simp] theorem State.updJob_cq (i : Nat) (f : Job → Job) (q : Fin 256) : (s.updJob i f).cq q = s.cq q := rfl
@[simp] theorem State.updEng_cq (e : Fin 36) (f : Engine → Engine) (q : Fin 256) : (s.updEng e f).cq q = s.cq q := rfl

end Sys2Proof.Machine
end

