-- ==== Sys2Proof/Laws/Cascade.lean ====
section
/-! SUPPORT. What the arrival and the sending of a cascade frame can do (R482, R483). -/

namespace Sys2Proof.Machine

variable {s : State} {h : CasHead} {b : CasBody} {f : State → State}

/-- With nothing injected, no word that crosses is poisoned. -/
theorem State.fifoAny_none (hf : s.flt.fifo = []) (lo n : Nat) : s.fifoAny lo n = (false, s) := by simp [State.fifoAny, hf]

/-- A good frame for this block is acknowledged, and taken. -/
theorem State.arrive_here (hr : s.inRing = true) (hc : h.crcOk = true) (hf : s.flt.fifo = []) (hd : h.dst = s.cas.member) :
    s.arrive h f = f (s.heard h) := by
  simp [State.arrive, hr, hc, hd, State.fifoAny_none hf]

/-- A good frame for another member is acknowledged, and passed on. -/
theorem State.arrive_transit (hr : s.inRing = true) (hc : h.crcOk = true) (hf : s.flt.fifo = []) (hd : h.dst ≠ s.cas.member) :
    s.arrive h f = (s.heard h).passOn (side h.east) h := by
  simp [State.arrive, hr, hc, hd, State.fifoAny_none hf]

/-- Outside the ring, and where the hop has harmed the frame, nothing happens. -/
theorem State.arrive_not (hr : (s.inRing && h.crcOk) = false) : s.arrive h f = s := by simp [State.arrive, hr]

/-- An arrival reaches the acknowledgements and an input log. -/
theorem State.heard_frame (s : State) (h : CasHead) :
    s.heard h = { s with cas := { s.cas with acks := (s.heard h).cas.acks }, flt := (s.heard h).flt } := by
  unfold State.heard State.exchange; dsimp only; split <;> rfl

@[simp] theorem State.heard_peers (s : State) (h : CasHead) : (s.heard h).cas.peers = s.cas.peers := by rw [State.heard_frame]
@[simp] theorem State.heard_member (s : State) (h : CasHead) : (s.heard h).cas.member = s.cas.member := by rw [State.heard_frame]
@[simp] theorem State.heard_role (s : State) (h : CasHead) : (s.heard h).cas.role = s.cas.role := by rw [State.heard_frame]
@[simp] theorem State.heard_fifo (s : State) (h : CasHead) : (s.heard h).flt.fifo = s.flt.fifo := by
  unfold State.heard State.exchange; dsimp only; split <;> rfl

@[simp] theorem State.heard_frameOk (s : State) (h : CasHead) (b : CasBody) : (s.heard h).frameOk h b = s.frameOk h b := by
  simp [State.frameOk]

/-- A frame below 2^48 that is taken changes only the last counter accepted. -/
theorem State.take_below (hc : h.ctr < 2 ^ 48) : s.take h = s.updPeer h.src fun p => { p with got := h.ctr } :=
  congrArg (s.updPeer h.src) (funext fun _ => if_neg (Nat.not_le.mpr hc))

/-- The enrolled set of the lead is as before: no PAIR_KEYS goes out. -/
theorem State.pairsSince_same (s : State) : s.pairsSince s.enrolled = s := by simp [State.pairsSince]

/-- A frame for a member that a key is shared with joins the output buffer. -/
theorem State.cascadeSend_keyed (m : Fin 4) (hk : s.cas.peers[m].key.isSome = true) :
    s.cascadeSend m b = s.updCas fun c =>
      { c with peers := c.peers.set m { c.peers[m] with sent := c.peers[m].sent + 1 }, held := c.held ++ [s.casOut m b] } := by
  unfold State.cascadeSend; rw [if_pos hk]

end Sys2Proof.Machine
end

