-- ==== Sys2Proof/Laws/Frames.lean ====
section
/-! SUPPORT. What the shared operations that never branch leave as it is, field by field. -/

namespace Sys2Proof.Machine

variable (s : State)

@[simp] theorem State.countBy_pending (i k v : Nat) : (s.countBy i k v).pending = s.pending := rfl
@[simp] theorem State.countBy_now (i k v : Nat) : (s.countBy i k v).now = s.now := rfl
@[simp] theorem State.countBy_free (i k v : Nat) : (s.countBy i k v).free = s.free := rfl
@[simp] theorem State.countBy_pins (i k v : Nat) : (s.countBy i k v).pins = s.pins := rfl
@[simp] theorem State.countBy_pwr (i k v : Nat) : (s.countBy i k v).pwr = s.pwr := rfl
@[simp] theorem State.countBy_sentry (i k v : Nat) : (s.countBy i k v).sentry = s.sentry := rfl
@[simp] theorem State.countBy_tamper (i k v : Nat) : (s.countBy i k v).tamper = s.tamper := rfl
@[simp] theorem State.countBy_vault (i k v : Nat) : (s.countBy i k v).vault = s.vault := rfl
@[simp] theorem State.countBy_life (i k v : Nat) : (s.countBy i k v).life = s.life := rfl
@[simp] theorem State.countBy_keys (i k v : Nat) : (s.countBy i k v).keys = s.keys := rfl
@[simp] theorem State.countBy_insts (i k v : Nat) : (s.countBy i k v).insts = s.insts := rfl
@[simp] theorem State.countBy_sqs (i k v : Nat) : (s.countBy i k v).sqs = s.sqs := rfl
@[simp] theorem State.countBy_cqs (i k v : Nat) : (s.countBy i k v).cqs = s.cqs := rfl
@[simp] theorem State.countBy_jobs (i k v : Nat) : (s.countBy i k v).jobs = s.jobs := rfl
@[simp] theorem State.countBy_units (i k v : Nat) : (s.countBy i k v).units = s.units := rfl
@[simp] theorem State.countBy_fab (i k v : Nat) : (s.countBy i k v).fab = s.fab := rfl
@[simp] theorem State.countBy_irq (i k v : Nat) : (s.countBy i k v).irq = s.irq := rfl
@[simp] theorem State.countBy_rt (i k v : Nat) : (s.countBy i k v).rt = s.rt := rfl
@[simp] theorem State.countBy_dict (i k v : Nat) : (s.countBy i k v).dict = s.dict := rfl
@[simp] theorem State.countBy_cfg (i k v : Nat) : (s.countBy i k v).cfg = s.cfg := rfl
@[simp] theorem State.countBy_jnl (i k v : Nat) : (s.countBy i k v).jnl = s.jnl := rfl
@[simp] theorem State.countBy_card (i k v : Nat) : (s.countBy i k v).card = s.card := rfl
@[simp] theorem State.countBy_flt (i k v : Nat) : (s.countBy i k v).flt = s.flt := rfl
@[simp] theorem State.countBy_rng (i k v : Nat) : (s.countBy i k v).rng = s.rng := rfl
@[simp] theorem State.countBy_edge (i k v : Nat) : (s.countBy i k v).edge = s.edge := rfl
@[simp] theorem State.countBy_eoa (i k v : Nat) : (s.countBy i k v).eoa = s.eoa := rfl
@[simp] theorem State.countBy_cas (i k v : Nat) : (s.countBy i k v).cas = s.cas := rfl
@[simp] theorem State.countBy_disp (i k v : Nat) : (s.countBy i k v).disp = s.disp := rfl
@[simp] theorem State.countBy_inst (i k v : Nat) (m : Fin 128) : (s.countBy i k v).inst m = s.inst m := rfl
@[simp] theorem State.countBy_sq (i k v : Nat) (g : Fin 512) : (s.countBy i k v).sq g = s.sq g := rfl
@[simp] theorem State.countBy_cq (i k v : Nat) (q : Fin 256) : (s.countBy i k v).cq q = s.cq q := rfl

@[simp] theorem State.count_pending (i k : Nat) : (s.count i k).pending = s.pending := rfl
@[simp] theorem State.count_now (i k : Nat) : (s.count i k).now = s.now := rfl
@[simp] theorem State.count_free (i k : Nat) : (s.count i k).free = s.free := rfl
@[simp] theorem State.count_pins (i k : Nat) : (s.count i k).pins = s.pins := rfl
@[simp] theorem State.count_pwr (i k : Nat) : (s.count i k).pwr = s.pwr := rfl
@[simp] theorem State.count_sentry (i k : Nat) : (s.count i k).sentry = s.sentry := rfl
@[simp] theorem State.count_tamper (i k : Nat) : (s.count i k).tamper = s.tamper := rfl
@[simp] theorem State.count_vault (i k : Nat) : (s.count i k).vault = s.vault := rfl
@[simp] theorem State.count_life (i k : Nat) : (s.count i k).life = s.life := rfl
@[simp] theorem State.count_keys (i k : Nat) : (s.count i k).keys = s.keys := rfl
@[simp] theorem State.count_insts (i k : Nat) : (s.count i k).insts = s.insts := rfl
@[simp] theorem State.count_sqs (i k : Nat) : (s.count i k).sqs = s.sqs := rfl
@[simp] theorem State.count_cqs (i k : Nat) : (s.count i k).cqs = s.cqs := rfl
@[simp] theorem State.count_jobs (i k : Nat) : (s.count i k).jobs = s.jobs := rfl
@[simp] theorem State.count_units (i k : Nat) : (s.count i k).units = s.units := rfl
@[simp] theorem State.count_fab (i k : Nat) : (s.count i k).fab = s.fab := rfl
@[simp] theorem State.count_irq (i k : Nat) : (s.count i k).irq = s.irq := rfl
@[simp] theorem State.count_rt (i k : Nat) : (s.count i k).rt = s.rt := rfl
@[simp] theorem State.count_dict (i k : Nat) : (s.count i k).dict = s.dict := rfl
@[simp] theorem State.count_cfg (i k : Nat) : (s.count i k).cfg = s.cfg := rfl
@[simp] theorem State.count_jnl (i k : Nat) : (s.count i k).jnl = s.jnl := rfl
@[simp] theorem State.count_card (i k : Nat) : (s.count i k).card = s.card := rfl
@[simp] theorem State.count_flt (i k : Nat) : (s.count i k).flt = s.flt := rfl
@[simp] theorem State.count_rng (i k : Nat) : (s.count i k).rng = s.rng := rfl
@[simp] theorem State.count_edge (i k : Nat) : (s.count i k).edge = s.edge := rfl
@[simp] theorem State.count_eoa (i k : Nat) : (s.count i k).eoa = s.eoa := rfl
@[simp] theorem State.count_cas (i k : Nat) : (s.count i k).cas = s.cas := rfl
@[simp] theorem State.count_disp (i k : Nat) : (s.count i k).disp = s.disp := rfl
@[simp] theorem State.count_inst (i k : Nat) (m : Fin 128) : (s.count i k).inst m = s.inst m := rfl
@[simp] theorem State.count_sq (i k : Nat) (g : Fin 512) : (s.count i k).sq g = s.sq g := rfl
@[simp] theorem State.count_cq (i k : Nat) (q : Fin 256) : (s.count i k).cq q = s.cq q := rfl

@[simp] theorem State.countInst_pending (n : Fin 128) (k : Nat) : (s.countInst n k).pending = s.pending := rfl
@[simp] theorem State.countInst_now (n : Fin 128) (k : Nat) : (s.countInst n k).now = s.now := rfl
@[simp] theorem State.countInst_free (n : Fin 128) (k : Nat) : (s.countInst n k).free = s.free := rfl
@[simp] theorem State.countInst_pins (n : Fin 128) (k : Nat) : (s.countInst n k).pins = s.pins := rfl
@[simp] theorem State.countInst_pwr (n : Fin 128) (k : Nat) : (s.countInst n k).pwr = s.pwr := rfl
@[simp] theorem State.countInst_sentry (n : Fin 128) (k : Nat) : (s.countInst n k).sentry = s.sentry := rfl
@[simp] theorem State.countInst_tamper (n : Fin 128) (k : Nat) : (s.countInst n k).tamper = s.tamper := rfl
@[simp] theorem State.countInst_vault (n : Fin 128) (k : Nat) : (s.countInst n k).vault = s.vault := rfl
@[simp] theorem State.countInst_life (n : Fin 128) (k : Nat) : (s.countInst n k).life = s.life := rfl
@[simp] theorem State.countInst_keys (n : Fin 128) (k : Nat) : (s.countInst n k).keys = s.keys := rfl
@[simp] theorem State.countInst_insts (n : Fin 128) (k : Nat) : (s.countInst n k).insts = s.insts := rfl
@[simp] theorem State.countInst_sqs (n : Fin 128) (k : Nat) : (s.countInst n k).sqs = s.sqs := rfl
@[simp] theorem State.countInst_cqs (n : Fin 128) (k : Nat) : (s.countInst n k).cqs = s.cqs := rfl
@[simp] theorem State.countInst_jobs (n : Fin 128) (k : Nat) : (s.countInst n k).jobs = s.jobs := rfl
@[simp] theorem State.countInst_units (n : Fin 128) (k : Nat) : (s.countInst n k).units = s.units := rfl
@[simp] theorem State.countInst_fab (n : Fin 128) (k : Nat) : (s.countInst n k).fab = s.fab := rfl
@[simp] theorem State.countInst_irq (n : Fin 128) (k : Nat) : (s.countInst n k).irq = s.irq := rfl
@[simp] theorem State.countInst_rt (n : Fin 128) (k : Nat) : (s.countInst n k).rt = s.rt := rfl
@[simp] theorem State.countInst_dict (n : Fin 128) (k : Nat) : (s.countInst n k).dict = s.dict := rfl
@[simp] theorem State.countInst_cfg (n : Fin 128) (k : Nat) : (s.countInst n k).cfg = s.cfg := rfl
@[simp] theorem State.countInst_jnl (n : Fin 128) (k : Nat) : (s.countInst n k).jnl = s.jnl := rfl
@[simp] theorem State.countInst_card (n : Fin 128) (k : Nat) : (s.countInst n k).card = s.card := rfl
@[simp] theorem State.countInst_flt (n : Fin 128) (k : Nat) : (s.countInst n k).flt = s.flt := rfl
@[simp] theorem State.countInst_rng (n : Fin 128) (k : Nat) : (s.countInst n k).rng = s.rng := rfl
@[simp] theorem State.countInst_edge (n : Fin 128) (k : Nat) : (s.countInst n k).edge = s.edge := rfl
@[simp] theorem State.countInst_eoa (n : Fin 128) (k : Nat) : (s.countInst n k).eoa = s.eoa := rfl
@[simp] theorem State.countInst_cas (n : Fin 128) (k : Nat) : (s.countInst n k).cas = s.cas := rfl
@[simp] theorem State.countInst_disp (n : Fin 128) (k : Nat) : (s.countInst n k).disp = s.disp := rfl
@[simp] theorem State.countInst_inst (n : Fin 128) (k : Nat) (m : Fin 128) : (s.countInst n k).inst m = s.inst m := rfl
@[simp] theorem State.countInst_sq (n : Fin 128) (k : Nat) (g : Fin 512) : (s.countInst n k).sq g = s.sq g := rfl
@[simp] theorem State.countInst_cq (n : Fin 128) (k : Nat) (q : Fin 256) : (s.countInst n k).cq q = s.cq q := rfl

@[simp] theorem State.exchange_pending (u : Fin 2) (x : Sample) : (s.exchange u x).pending = s.pending := by unfold State.exchange; split <;> rfl
@[simp] theorem State.exchange_now (u : Fin 2) (x : Sample) : (s.exchange u x).now = s.now := by unfold State.exchange; split <;> rfl
@[simp] theorem State.exchange_free (u : Fin 2) (x : Sample) : (s.exchange u x).free = s.free := by unfold State.exchange; split <;> rfl
@[simp] theorem State.exchange_pins (u : Fin 2) (x : Sample) : (s.exchange u x).pins = s.pins := by unfold State.exchange; split <;> rfl
@[simp] theorem State.exchange_pwr (u : Fin 2) (x : Sample) : (s.exchange u x).pwr = s.pwr := by unfold State.exchange; split <;> rfl
@[simp] theorem State.exchange_sentry (u : Fin 2) (x : Sample) : (s.exchange u x).sentry = s.sentry := by unfold State.exchange; split <;> rfl
@[simp] theorem State.exchange_tamper (u : Fin 2) (x : Sample) : (s.exchange u x).tamper = s.tamper := by unfold State.exchange; split <;> rfl
@[simp] theorem State.exchange_vault (u : Fin 2) (x : Sample) : (s.exchange u x).vault = s.vault := by unfold State.exchange; split <;> rfl
@[simp] theorem State.exchange_life (u : Fin 2) (x : Sample) : (s.exchange u x).life = s.life := by unfold State.exchange; split <;> rfl
@[simp] theorem State.exchange_keys (u : Fin 2) (x : Sample) : (s.exchange u x).keys = s.keys := by unfold State.exchange; split <;> rfl
@[simp] theorem State.exchange_insts (u : Fin 2) (x : Sample) : (s.exchange u x).insts = s.insts := by unfold State.exchange; split <;> rfl
@[simp] theorem State.exchange_sqs (u : Fin 2) (x : Sample) : (s.exchange u x).sqs = s.sqs := by unfold State.exchange; split <;> rfl
@[simp] theorem State.exchange_cqs (u : Fin 2) (x : Sample) : (s.exchange u x).cqs = s.cqs := by unfold State.exchange; split <;> rfl
@[simp] theorem State.exchange_jobs (u : Fin 2) (x : Sample) : (s.exchange u x).jobs = s.jobs := by unfold State.exchange; split <;> rfl
@[simp] theorem State.exchange_units (u : Fin 2) (x : Sample) : (s.exchange u x).units = s.units := by unfold State.exchange; split <;> rfl
@[simp] theorem State.exchange_fab (u : Fin 2) (x : Sample) : (s.exchange u x).fab = s.fab := by unfold State.exchange; split <;> rfl
@[simp] theorem State.exchange_irq (u : Fin 2) (x : Sample) : (s.exchange u x).irq = s.irq := by unfold State.exchange; split <;> rfl
@[simp] theorem State.exchange_rt (u : Fin 2) (x : Sample) : (s.exchange u x).rt = s.rt := by unfold State.exchange; split <;> rfl
@[simp] theorem State.exchange_cnt (u : Fin 2) (x : Sample) : (s.exchange u x).cnt = s.cnt := by unfold State.exchange; split <;> rfl
@[simp] theorem State.exchange_dict (u : Fin 2) (x : Sample) : (s.exchange u x).dict = s.dict := by unfold State.exchange; split <;> rfl
@[simp] theorem State.exchange_cfg (u : Fin 2) (x : Sample) : (s.exchange u x).cfg = s.cfg := by unfold State.exchange; split <;> rfl
@[simp] theorem State.exchange_jnl (u : Fin 2) (x : Sample) : (s.exchange u x).jnl = s.jnl := by unfold State.exchange; split <;> rfl
@[simp] theorem State.exchange_card (u : Fin 2) (x : Sample) : (s.exchange u x).card = s.card := by unfold State.exchange; split <;> rfl
@[simp] theorem State.exchange_rng (u : Fin 2) (x : Sample) : (s.exchange u x).rng = s.rng := by unfold State.exchange; split <;> rfl
@[simp] theorem State.exchange_edge (u : Fin 2) (x : Sample) : (s.exchange u x).edge = s.edge := by unfold State.exchange; split <;> rfl
@[simp] theorem State.exchange_eoa (u : Fin 2) (x : Sample) : (s.exchange u x).eoa = s.eoa := by unfold State.exchange; split <;> rfl
@[simp] theorem State.exchange_cas (u : Fin 2) (x : Sample) : (s.exchange u x).cas = s.cas := by unfold State.exchange; split <;> rfl
@[simp] theorem State.exchange_disp (u : Fin 2) (x : Sample) : (s.exchange u x).disp = s.disp := by unfold State.exchange; split <;> rfl
@[simp] theorem State.exchange_inst (u : Fin 2) (x : Sample) (m : Fin 128) : (s.exchange u x).inst m = s.inst m := by unfold State.exchange; split <;> rfl
@[simp] theorem State.exchange_sq (u : Fin 2) (x : Sample) (g : Fin 512) : (s.exchange u x).sq g = s.sq g := by unfold State.exchange; split <;> rfl
@[simp] theorem State.exchange_cq (u : Fin 2) (x : Sample) (q : Fin 256) : (s.exchange u x).cq q = s.cq q := by unfold State.exchange; split <;> rfl
@[simp] theorem State.exchange_causes (u : Fin 2) (x : Sample) : (s.exchange u x).flt.causes = s.flt.causes := by
  unfold State.exchange; split <;> rfl
@[simp] theorem State.exchange_dataHalt (u : Fin 2) (x : Sample) : (s.exchange u x).flt.dataHalt = s.flt.dataHalt := by
  unfold State.exchange; split <;> rfl
@[simp] theorem State.exchange_lastKeys (u : Fin 2) (x : Sample) : (s.exchange u x).flt.lastKeys = s.flt.lastKeys := by
  unfold State.exchange; split <;> rfl
@[simp] theorem State.exchange_fifo (u : Fin 2) (x : Sample) : (s.exchange u x).flt.fifo = s.flt.fifo := by
  unfold State.exchange; split <;> rfl

@[simp] theorem State.logEvent_pending (c i : Nat) (d : Bytes) : (s.logEvent c i d).pending = s.pending := s.exchange_pending _ _
@[simp] theorem State.logEvent_now (c i : Nat) (d : Bytes) : (s.logEvent c i d).now = s.now := s.exchange_now _ _
@[simp] theorem State.logEvent_free (c i : Nat) (d : Bytes) : (s.logEvent c i d).free = s.free := s.exchange_free _ _
@[simp] theorem State.logEvent_pins (c i : Nat) (d : Bytes) : (s.logEvent c i d).pins = s.pins := s.exchange_pins _ _
@[simp] theorem State.logEvent_pwr (c i : Nat) (d : Bytes) : (s.logEvent c i d).pwr = s.pwr := s.exchange_pwr _ _
@[simp] theorem State.logEvent_sentry (c i : Nat) (d : Bytes) : (s.logEvent c i d).sentry = s.sentry := s.exchange_sentry _ _
@[simp] theorem State.logEvent_tamper (c i : Nat) (d : Bytes) : (s.logEvent c i d).tamper = s.tamper := s.exchange_tamper _ _
@[simp] theorem State.logEvent_vault (c i : Nat) (d : Bytes) : (s.logEvent c i d).vault = s.vault := s.exchange_vault _ _
@[simp] theorem State.logEvent_life (c i : Nat) (d : Bytes) : (s.logEvent c i d).life = s.life := s.exchange_life _ _
@[simp] theorem State.logEvent_keys (c i : Nat) (d : Bytes) : (s.logEvent c i d).keys = s.keys := s.exchange_keys _ _
@[simp] theorem State.logEvent_insts (c i : Nat) (d : Bytes) : (s.logEvent c i d).insts = s.insts := s.exchange_insts _ _
@[simp] theorem State.logEvent_sqs (c i : Nat) (d : Bytes) : (s.logEvent c i d).sqs = s.sqs := s.exchange_sqs _ _
@[simp] theorem State.logEvent_cqs (c i : Nat) (d : Bytes) : (s.logEvent c i d).cqs = s.cqs := s.exchange_cqs _ _
@[simp] theorem State.logEvent_jobs (c i : Nat) (d : Bytes) : (s.logEvent c i d).jobs = s.jobs := s.exchange_jobs _ _
@[simp] theorem State.logEvent_units (c i : Nat) (d : Bytes) : (s.logEvent c i d).units = s.units := s.exchange_units _ _
@[simp] theorem State.logEvent_fab (c i : Nat) (d : Bytes) : (s.logEvent c i d).fab = s.fab := s.exchange_fab _ _
@[simp] theorem State.logEvent_irq (c i : Nat) (d : Bytes) : (s.logEvent c i d).irq = s.irq := s.exchange_irq _ _
@[simp] theorem State.logEvent_rt (c i : Nat) (d : Bytes) : (s.logEvent c i d).rt = s.rt := s.exchange_rt _ _
@[simp] theorem State.logEvent_cnt (c i : Nat) (d : Bytes) : (s.logEvent c i d).cnt = s.cnt := s.exchange_cnt _ _
@[simp] theorem State.logEvent_dict (c i : Nat) (d : Bytes) : (s.logEvent c i d).dict = s.dict := s.exchange_dict _ _
@[simp] theorem State.logEvent_cfg (c i : Nat) (d : Bytes) : (s.logEvent c i d).cfg = s.cfg := s.exchange_cfg _ _
@[simp] theorem State.logEvent_card (c i : Nat) (d : Bytes) : (s.logEvent c i d).card = s.card := s.exchange_card _ _
@[simp] theorem State.logEvent_flt (c i : Nat) (d : Bytes) : (s.logEvent c i d).flt = (s.exchange 0 (.tbTime s.pins.tbTime)).flt := rfl
@[simp] theorem State.logEvent_rng (c i : Nat) (d : Bytes) : (s.logEvent c i d).rng = s.rng := s.exchange_rng _ _
@[simp] theorem State.logEvent_edge (c i : Nat) (d : Bytes) : (s.logEvent c i d).edge = s.edge := s.exchange_edge _ _
@[simp] theorem State.logEvent_eoa (c i : Nat) (d : Bytes) : (s.logEvent c i d).eoa = s.eoa := s.exchange_eoa _ _
@[simp] theorem State.logEvent_cas (c i : Nat) (d : Bytes) : (s.logEvent c i d).cas = s.cas := s.exchange_cas _ _
@[simp] theorem State.logEvent_disp (c i : Nat) (d : Bytes) : (s.logEvent c i d).disp = s.disp := s.exchange_disp _ _
@[simp] theorem State.logEvent_inst (c i : Nat) (d : Bytes) (m : Fin 128) : (s.logEvent c i d).inst m = s.inst m := s.exchange_inst _ _ m
@[simp] theorem State.logEvent_sq (c i : Nat) (d : Bytes) (g : Fin 512) : (s.logEvent c i d).sq g = s.sq g := s.exchange_sq _ _ g
@[simp] theorem State.logEvent_cq (c i : Nat) (d : Bytes) (q : Fin 256) : (s.logEvent c i d).cq q = s.cq q := s.exchange_cq _ _ q

@[simp] theorem State.cause_pending (b : Nat) : (s.cause b).pending = s.pending := rfl
@[simp] theorem State.cause_now (b : Nat) : (s.cause b).now = s.now := rfl
@[simp] theorem State.cause_free (b : Nat) : (s.cause b).free = s.free := rfl
@[simp] theorem State.cause_pins (b : Nat) : (s.cause b).pins = s.pins := rfl
@[simp] theorem State.cause_pwr (b : Nat) : (s.cause b).pwr = s.pwr := rfl
@[simp] theorem State.cause_sentry (b : Nat) : (s.cause b).sentry = s.sentry := rfl
@[simp] theorem State.cause_tamper (b : Nat) : (s.cause b).tamper = s.tamper := rfl
@[simp] theorem State.cause_vault (b : Nat) : (s.cause b).vault = s.vault := rfl
@[simp] theorem State.cause_life (b : Nat) : (s.cause b).life = s.life := rfl
@[simp] theorem State.cause_keys (b : Nat) : (s.cause b).keys = s.keys := rfl
@[simp] theorem State.cause_insts (b : Nat) : (s.cause b).insts = s.insts := rfl
@[simp] theorem State.cause_sqs (b : Nat) : (s.cause b).sqs = s.sqs := rfl
@[simp] theorem State.cause_cqs (b : Nat) : (s.cause b).cqs = s.cqs := rfl
@[simp] theorem State.cause_jobs (b : Nat) : (s.cause b).jobs = s.jobs := rfl
@[simp] theorem State.cause_units (b : Nat) : (s.cause b).units = s.units := rfl
@[simp] theorem State.cause_fab (b : Nat) : (s.cause b).fab = s.fab := rfl
@[simp] theorem State.cause_irq (b : Nat) : (s.cause b).irq = s.irq := rfl
@[simp] theorem State.cause_rt (b : Nat) : (s.cause b).rt = s.rt := rfl
@[simp] theorem State.cause_cnt (b : Nat) : (s.cause b).cnt = s.cnt := rfl
@[simp] theorem State.cause_dict (b : Nat) : (s.cause b).dict = s.dict := rfl
@[simp] theorem State.cause_cfg (b : Nat) : (s.cause b).cfg = s.cfg := rfl
@[simp] theorem State.cause_jnl (b : Nat) : (s.cause b).jnl = s.jnl := rfl
@[simp] theorem State.cause_card (b : Nat) : (s.cause b).card = s.card := rfl
@[simp] theorem State.cause_rng (b : Nat) : (s.cause b).rng = s.rng := rfl
@[simp] theorem State.cause_edge (b : Nat) : (s.cause b).edge = s.edge := rfl
@[simp] theorem State.cause_eoa (b : Nat) : (s.cause b).eoa = s.eoa := rfl
@[simp] theorem State.cause_cas (b : Nat) : (s.cause b).cas = s.cas := rfl
@[simp] theorem State.cause_disp (b : Nat) : (s.cause b).disp = s.disp := rfl
@[simp] theorem State.cause_inst (b : Nat) (m : Fin 128) : (s.cause b).inst m = s.inst m := rfl
@[simp] theorem State.cause_sq (b : Nat) (g : Fin 512) : (s.cause b).sq g = s.sq g := rfl
@[simp] theorem State.cause_cq (b : Nat) (q : Fin 256) : (s.cause b).cq q = s.cq q := rfl

@[simp] theorem State.portOk_pending  : (s.portOk).pending = s.pending := rfl
@[simp] theorem State.portOk_now  : (s.portOk).now = s.now := rfl
@[simp] theorem State.portOk_free  : (s.portOk).free = s.free := rfl
@[simp] theorem State.portOk_pwr  : (s.portOk).pwr = s.pwr := rfl
@[simp] theorem State.portOk_sentry  : (s.portOk).sentry = s.sentry := rfl
@[simp] theorem State.portOk_tamper  : (s.portOk).tamper = s.tamper := rfl
@[simp] theorem State.portOk_vault  : (s.portOk).vault = s.vault := rfl
@[simp] theorem State.portOk_life  : (s.portOk).life = s.life := rfl
@[simp] theorem State.portOk_keys  : (s.portOk).keys = s.keys := rfl
@[simp] theorem State.portOk_insts  : (s.portOk).insts = s.insts := rfl
@[simp] theorem State.portOk_sqs  : (s.portOk).sqs = s.sqs := rfl
@[simp] theorem State.portOk_cqs  : (s.portOk).cqs = s.cqs := rfl
@[simp] theorem State.portOk_jobs  : (s.portOk).jobs = s.jobs := rfl
@[simp] theorem State.portOk_units  : (s.portOk).units = s.units := rfl
@[simp] theorem State.portOk_fab  : (s.portOk).fab = s.fab := rfl
@[simp] theorem State.portOk_irq  : (s.portOk).irq = s.irq := rfl
@[simp] theorem State.portOk_rt  : (s.portOk).rt = s.rt := rfl
@[simp] theorem State.portOk_cnt  : (s.portOk).cnt = s.cnt := rfl
@[simp] theorem State.portOk_dict  : (s.portOk).dict = s.dict := rfl
@[simp] theorem State.portOk_cfg  : (s.portOk).cfg = s.cfg := rfl
@[simp] theorem State.portOk_jnl  : (s.portOk).jnl = s.jnl := rfl
@[simp] theorem State.portOk_card  : (s.portOk).card = s.card := rfl
@[simp] theorem State.portOk_flt  : (s.portOk).flt = s.flt := rfl
@[simp] theorem State.portOk_rng  : (s.portOk).rng = s.rng := rfl
@[simp] theorem State.portOk_edge  : (s.portOk).edge = s.edge := rfl
@[simp] theorem State.portOk_eoa  : (s.portOk).eoa = s.eoa := rfl
@[simp] theorem State.portOk_cas  : (s.portOk).cas = s.cas := rfl
@[simp] theorem State.portOk_disp  : (s.portOk).disp = s.disp := rfl
@[simp] theorem State.portOk_inst  (m : Fin 128) : (s.portOk).inst m = s.inst m := rfl
@[simp] theorem State.portOk_sq  (g : Fin 512) : (s.portOk).sq g = s.sq g := rfl
@[simp] theorem State.portOk_cq  (q : Fin 256) : (s.portOk).cq q = s.cq q := rfl

@[simp] theorem State.portError_pending  : (s.portError).pending = s.pending := rfl
@[simp] theorem State.portError_now  : (s.portError).now = s.now := rfl
@[simp] theorem State.portError_free  : (s.portError).free = s.free := rfl
@[simp] theorem State.portError_pwr  : (s.portError).pwr = s.pwr := rfl
@[simp] theorem State.portError_sentry  : (s.portError).sentry = s.sentry := rfl
@[simp] theorem State.portError_tamper  : (s.portError).tamper = s.tamper := rfl
@[simp] theorem State.portError_vault  : (s.portError).vault = s.vault := rfl
@[simp] theorem State.portError_life  : (s.portError).life = s.life := rfl
@[simp] theorem State.portError_keys  : (s.portError).keys = s.keys := rfl
@[simp] theorem State.portError_insts  : (s.portError).insts = s.insts := rfl
@[simp] theorem State.portError_sqs  : (s.portError).sqs = s.sqs := rfl
@[simp] theorem State.portError_cqs  : (s.portError).cqs = s.cqs := rfl
@[simp] theorem State.portError_jobs  : (s.portError).jobs = s.jobs := rfl
@[simp] theorem State.portError_units  : (s.portError).units = s.units := rfl
@[simp] theorem State.portError_fab  : (s.portError).fab = s.fab := rfl
@[simp] theorem State.portError_irq  : (s.portError).irq = s.irq := rfl
@[simp] theorem State.portError_rt  : (s.portError).rt = s.rt := rfl
@[simp] theorem State.portError_cnt  : (s.portError).cnt = s.cnt := rfl
@[simp] theorem State.portError_dict  : (s.portError).dict = s.dict := rfl
@[simp] theorem State.portError_cfg  : (s.portError).cfg = s.cfg := rfl
@[simp] theorem State.portError_jnl  : (s.portError).jnl = s.jnl := rfl
@[simp] theorem State.portError_card  : (s.portError).card = s.card := rfl
@[simp] theorem State.portError_flt  : (s.portError).flt = s.flt := rfl
@[simp] theorem State.portError_rng  : (s.portError).rng = s.rng := rfl
@[simp] theorem State.portError_edge  : (s.portError).edge = s.edge := rfl
@[simp] theorem State.portError_eoa  : (s.portError).eoa = s.eoa := rfl
@[simp] theorem State.portError_cas  : (s.portError).cas = s.cas := rfl
@[simp] theorem State.portError_disp  : (s.portError).disp = s.disp := rfl
@[simp] theorem State.portError_inst  (m : Fin 128) : (s.portError).inst m = s.inst m := rfl
@[simp] theorem State.portError_sq  (g : Fin 512) : (s.portError).sq g = s.sq g := rfl
@[simp] theorem State.portError_cq  (q : Fin 256) : (s.portError).cq q = s.cq q := rfl

@[simp] theorem State.admittedAt_pending  : (s.admittedAt).pending = s.pending := rfl
@[simp] theorem State.admittedAt_now  : (s.admittedAt).now = s.now := rfl
@[simp] theorem State.admittedAt_free  : (s.admittedAt).free = s.free := rfl
@[simp] theorem State.admittedAt_sentry  : (s.admittedAt).sentry = s.sentry := rfl
@[simp] theorem State.admittedAt_tamper  : (s.admittedAt).tamper = s.tamper := rfl
@[simp] theorem State.admittedAt_vault  : (s.admittedAt).vault = s.vault := rfl
@[simp] theorem State.admittedAt_life  : (s.admittedAt).life = s.life := rfl
@[simp] theorem State.admittedAt_keys  : (s.admittedAt).keys = s.keys := rfl
@[simp] theorem State.admittedAt_insts  : (s.admittedAt).insts = s.insts := rfl
@[simp] theorem State.admittedAt_sqs  : (s.admittedAt).sqs = s.sqs := rfl
@[simp] theorem State.admittedAt_cqs  : (s.admittedAt).cqs = s.cqs := rfl
@[simp] theorem State.admittedAt_jobs  : (s.admittedAt).jobs = s.jobs := rfl
@[simp] theorem State.admittedAt_units  : (s.admittedAt).units = s.units := rfl
@[simp] theorem State.admittedAt_fab  : (s.admittedAt).fab = s.fab := rfl
@[simp] theorem State.admittedAt_irq  : (s.admittedAt).irq = s.irq := rfl
@[simp] theorem State.admittedAt_rt  : (s.admittedAt).rt = s.rt := rfl
@[simp] theorem State.admittedAt_dict  : (s.admittedAt).dict = s.dict := rfl
@[simp] theorem State.admittedAt_cfg  : (s.admittedAt).cfg = s.cfg := rfl
@[simp] theorem State.admittedAt_jnl  : (s.admittedAt).jnl = s.jnl := rfl
@[simp] theorem State.admittedAt_card  : (s.admittedAt).card = s.card := rfl
@[simp] theorem State.admittedAt_flt  : (s.admittedAt).flt = s.flt := rfl
@[simp] theorem State.admittedAt_rng  : (s.admittedAt).rng = s.rng := rfl
@[simp] theorem State.admittedAt_edge  : (s.admittedAt).edge = s.edge := rfl
@[simp] theorem State.admittedAt_eoa  : (s.admittedAt).eoa = s.eoa := rfl
@[simp] theorem State.admittedAt_cas  : (s.admittedAt).cas = s.cas := rfl
@[simp] theorem State.admittedAt_disp  : (s.admittedAt).disp = s.disp := rfl
@[simp] theorem State.admittedAt_inst  (m : Fin 128) : (s.admittedAt).inst m = s.inst m := rfl
@[simp] theorem State.admittedAt_sq  (g : Fin 512) : (s.admittedAt).sq g = s.sq g := rfl
@[simp] theorem State.admittedAt_cq  (q : Fin 256) : (s.admittedAt).cq q = s.cq q := rfl

end Sys2Proof.Machine
end

