-- ==== Sys2Proof/Laws/Journal.lean ====
section
/-! SUPPORT. A journal page as the block writes it is valid (R419, R428). -/

namespace Sys2Proof.Machine

@[simp] theorem toLe_length (n v : Nat) : (toLe n v).length = n := by
  induction n generalizing v with
  | zero => rfl
  | succ n ih => simp [toLe, ih]

@[simp] theorem zeros_length (n : Nat) : (zeros n).length = n := by simp [zeros]
@[simp] theorem padTo_length (n : Nat) (b : Bytes) : (padTo n b).length = n := by simp [padTo]; omega

/-- A block comes out as long as the last round key. -/
theorem encBlock_length {rks : List Bytes} (h : (rks.getLastD []).length = 16) (b : Bytes) : (encBlock rks b).length = 16 := by
  rw [encBlock, xorB, List.length_zipWith, h]; simp [shiftRows]

theorem keystream_length {rks : List Bytes} (h : (rks.getLastD []).length = 16) (c : Nat → Bytes) (n : Nat) :
    (keystream rks c n).length = 16 * n := by
  simp [keystream, List.length_flatten, Function.comp_def, encBlock_length h, List.map_const', Nat.mul_comm]

theorem aesCtr_length {key : Bytes} (h : ((roundKeys key).getLastD []).length = 16) (iv data : Bytes) : (aesCtr key iv data).length = data.length := by
  have : data.length ≤ 16 * ceilDiv data.length 16 := by simp [ceilDiv]; omega
  simp [aesCtr, xorB, keystream_length h, this]

theorem cmac_length {key : Bytes} (h : ((roundKeys key).getLastD []).length = 16) (m : Bytes) : (cmac key m).length = 16 := encBlock_length h _

theorem Group.head_length (g : Group) (q n : Nat) : (g.head q n).length = 48 := by simp [Group.head, boolBytes]

/-- The pages of a group verify under the group's keys. -/
theorem Group.page_valid (g : Group) (q : Nat) (h1 : ((roundKeys (journalKey g.root 1)).getLastD []).length = 16)
    (h2 : ((roundKeys (journalKey g.root 2)).getLastD []).length = 16) : pageValid g.root (g.page q) = true := by
  let body := slice (g.recs.flatMap JRec.bytes) (4032 * (q - g.first)) 4032
  let x := aesCtr (journalKey g.root 1) (toBe 8 q ++ toBe 4 g.epoch ++ zeros 4) (padTo 4032 body)
  let p := g.head q body.length ++ x
  have hp : p.length = 4080 := by simp [p, Group.head_length, x, aesCtr_length h1]
  have hpage : g.page q = p ++ cmac (journalKey g.root 2) p := rfl
  have h5 : (g.page q).take 4080 = p := by rw [hpage, List.take_append_of_le_length (by omega), List.take_of_length_le (by omega)]
  have h6 : slice (g.page q) 4080 16 = cmac (journalKey g.root 2) p := by
    rw [hpage, slice, List.drop_append_of_le_length (by omega), List.drop_of_length_le (by omega), List.nil_append,
      List.take_of_length_le (Nat.le_of_eq (cmac_length h2 _))]
  simp only [pageValid, h5, h6]
  have hh : g.page q = g.head q body.length ++ (x ++ cmac (journalKey g.root 2) p) := by rw [hpage]; simp [p]
  rw [hh]
  cases g.snapshot <;> cases hq : q == g.last <;> simp [Group.head, boolBytes, toLe, zeros, le, slice, ofLe, byteAt, flag, hq]

end Sys2Proof.Machine
end

