-- ==== Sys2Proof/Laws/Kept.lean ====
section
/-! SUPPORT. What the end of a job, the erasure of keys and the service of waiting jobs leave as it is. -/

namespace Sys2Proof.Machine

variable {s t u : State}

theorem State.Kept.refl (s : State) : s.Kept s := ⟨rfl, rfl, rfl, rfl, rfl, rfl, fun _ => rfl, rfl, rfl, rfl, rfl, rfl, rfl, rfl, rfl, id⟩
theorem State.KeptAll.refl (s : State) : s.KeptAll s := ⟨.refl s, rfl, rfl, rfl⟩

theorem State.Kept.trans (h : s.Kept t) (k : t.Kept u) : s.Kept u :=
  ⟨k.1.trans h.1, k.2.trans h.2, k.3.trans h.3, k.4.trans h.4, k.5.trans h.5, k.6.trans h.6, fun g => by rw [k.7, h.7], k.8.trans h.8,
   k.9.trans h.9, k.10.trans h.10, k.11.trans h.11, k.12.trans h.12, k.13.trans h.13, k.14.trans h.14,
   by rw [k.15, h.15], k.16 ∘ h.16⟩
theorem State.KeptAll.trans (h : s.KeptAll t) (k : t.KeptAll u) : s.KeptAll u :=
  ⟨h.1.trans k.1, k.2.trans h.2, k.3.trans h.3, k.4.trans h.4⟩

theorem State.Kept.each {α : Type} {f : State → α → State} (h : ∀ s x, State.Kept s (f s x)) (l : List α) (s : State) :
    s.Kept (s.each l f) := by
  unfold State.each
  induction l generalizing s with
  | nil => exact .refl s
  | cons a l ih => exact (h s a).trans (ih (f s a))
theorem State.KeptAll.each {α : Type} {f : State → α → State} (h : ∀ s x, State.KeptAll s (f s x)) (l : List α) (s : State) :
    s.KeptAll (s.each l f) := by
  unfold State.each
  induction l generalizing s with
  | nil => exact .refl s
  | cons a l ih => exact (h s a).trans (ih (f s a))

/-- An update of a part that is not kept. -/
theorem State.KeptAll.upd (h1 : t.pending = s.pending := by rfl) (h2 : t.now = s.now := by rfl) (h3 : t.free = s.free := by rfl)
    (h4 : t.tamper = s.tamper := by rfl) (h5 : t.vault = s.vault := by rfl) (h6 : t.life = s.life := by rfl)
    (h7 : t.sqs = s.sqs := by rfl) (h8 : t.rt = s.rt := by rfl) (h9 : t.cfg = s.cfg := by rfl)
    (h10 : t.card = s.card := by rfl) (h11 : t.rng = s.rng := by rfl) (h12 : t.pwr = s.pwr := by rfl)
    (h13 : t.sentry = s.sentry := by rfl) (h14 : t.disp = s.disp := by rfl) (h15 : t.pins = s.pins := by rfl)
    (h16 : t.dict = s.dict := by rfl) (h17 : t.edge = s.edge := by rfl) (h18 : t.eoa = s.eoa := by rfl) : s.KeptAll t :=
  ⟨⟨h1, h2, h3, h4, h5, h6, fun g => by simp [State.sq, h7], h8, h9, h10, h11, h12, h13, h14, by rw [h15], by rw [h15]; exact id⟩, h16, h17, h18⟩

namespace State.KeptAll
theorem updInst (s : State) (n : Fin 128) (f : Inst → Inst) : s.KeptAll (s.updInst n f) := .upd
theorem updCq (s : State) (q : Fin 256) (f : Cq → Cq) : s.KeptAll (s.updCq q f) := .upd
theorem updKeys (s : State) (f : Keys → Keys) : s.KeptAll (s.updKeys f) := .upd
theorem updUnits (s : State) (f : Units → Units) : s.KeptAll (s.updUnits f) := .upd
theorem updEng (s : State) (e : Fin 36) (f : Engine → Engine) : s.KeptAll (s.updEng e f) := .upd
theorem updFab (s : State) (f : Fab → Fab) : s.KeptAll (s.updFab f) := .upd
theorem updIrq (s : State) (f : Irq → Irq) : s.KeptAll (s.updIrq f) := .upd
theorem updCnt (s : State) (f : Cnt → Cnt) : s.KeptAll (s.updCnt f) := .upd
theorem updJnl (s : State) (f : Jnl → Jnl) : s.KeptAll (s.updJnl f) := .upd
theorem updFlt (s : State) (f : Flt → Flt) : s.KeptAll (s.updFlt f) := .upd
theorem updCas (s : State) (f : Cas → Cas) : s.KeptAll (s.updCas f) := .upd
theorem updJob (s : State) (i : Nat) (f : Job → Job) : s.KeptAll (s.updJob i f) := .upd
theorem setJobs (s : State) (l : List Job) : s.KeptAll (s.setJobs l) := .upd
theorem countBy (s : State) (i k v : Nat) : s.KeptAll (s.countBy i k v) := .upd
theorem count (s : State) (i k : Nat) : s.KeptAll (s.count i k) := .upd
theorem countInst (s : State) (n : Fin 128) (k : Nat) : s.KeptAll (s.countInst n k) := .upd
theorem cause (s : State) (b : Nat) : s.KeptAll (s.cause b) := .upd
theorem exchange (s : State) (u : Fin 2) (x : Sample) : s.KeptAll (s.exchange u x) := by
  unfold State.exchange; split
  · exact .updFlt _ _
  · exact .refl _
theorem logEvent (s : State) (c i : Nat) (d : Bytes) : s.KeptAll (s.logEvent c i d) := (exchange _ _ _).trans .upd
theorem dropJobs (s : State) (n : Fin 128) : s.KeptAll (s.dropJobs n) := .upd
theorem cascadeSend (s : State) (m : Fin 4) (b : CasBody) : s.KeptAll (s.cascadeSend m b) := by
  unfold State.cascadeSend; split
  · exact .updCas _ _
  · exact .refl _
theorem fifoWord (s : State) (u : Nat) : s.KeptAll (s.fifoWord u).2 := by
  unfold State.fifoWord; split
  · exact ((KeptAll.updFlt _ _).trans (.count _ _ _)).trans (.cause _ _)
  · exact .refl _
theorem unreserve (s : State) (q : Fin 256) : s.KeptAll (s.unreserve q) := .upd
end State.KeptAll

/-! ## Jobs end -/

theorem State.irqCq_kept (s : State) (q : Fin 256) : s.KeptAll (s.irqCq q) := by
  unfold State.irqCq State.raiseIrq; split
  · exact .updIrq _ _
  · exact .refl _

theorem State.notice_kept (s : State) (n : Fin 128) (c a : Nat) : s.KeptAll (s.notice n c a) := by
  unfold State.notice
  dsimp only
  split
  · exact ((State.KeptAll.updInst _ _ _).trans (.cause _ _)).trans (State.irqCq_kept _ _)
  · exact (State.KeptAll.updInst _ _ _).trans (.cause _ _)

theorem State.dropWaiting_kept (s : State) (n : Fin 128) (b : Bool) : s.KeptAll (s.dropWaiting n b) := by
  unfold State.dropWaiting
  dsimp only
  refine State.KeptAll.trans (t := { (s.updFab fun f => { f with writes := f.writes.filter fun w => !w.waits n }) with
    cqs := s.cqs.map fun c => { c with acks := c.acks.filter fun i => !((s.fab.writes.filter (Wr.waits n)).map (·.id)).contains i } }) .upd ?_
  split
  · exact State.KeptAll.each (fun _ _ => .countInst _ _ _) _ _
  · exact .refl _

theorem State.failInst_kept (s : State) (n : Fin 128) (c a : Nat) : s.KeptAll (s.failInst n c a) := by
  unfold State.failInst
  refine (State.notice_kept s n c a).trans ?_
  generalize s.notice n c a = s1
  dsimp only
  split
  iterate 3 exact (((State.KeptAll.updInst _ _ _).trans (.dropJobs _ _)).trans (State.dropWaiting_kept _ _ _)).trans (.logEvent _ _ _ _)
  exact .refl _

theorem State.countCheck_kept (s : State) (ok : Bool) : s.KeptAll (s.countCheck ok) := by
  unfold State.countCheck
  cases ok
  · exact (State.KeptAll.count _ _ _).trans (.count _ _ _)
  · exact .count _ _ _

/-- A write that goes out is counted, and its words cross the port's FIFO. -/
theorem State.writeOut_kept (s : State) (w : Wr) : s.KeptAll (s.writeOut w) := by
  unfold State.writeOut
  dsimp only
  have h := State.KeptAll.fifoWord s (8 * w.port + 4 + flag w.tc)
  generalize s.fifoWord (8 * w.port + 4 + flag w.tc) = x at h
  have h2 : s.KeptAll (if x.1 then x.2.updFab fun f => { f with writes := f.writes.map fun y => if y.id = w.id then { y with poison := true } else y } else x.2) := by
    split
    · exact h.trans (.updFab _ _)
    · exact h
  generalize (if x.1 then x.2.updFab fun f => { f with writes := f.writes.map fun y => if y.id = w.id then { y with poison := true } else y } else x.2) = y at h2
  have h3 := (h2.trans (.count y (0x2020 + w.port) 2)).trans (.countBy _ (0x2080 + w.inst.val) 10 w.data.length)
  generalize ((y.count (0x2020 + w.port) 2).countBy (0x2080 + w.inst.val) 10 w.data.length) = z at h3
  refine h3.trans ?_
  split
  · split
    · exact .countInst _ _ _
    · exact (State.KeptAll.countInst _ _ _).trans (.countInst _ _ _)
  · exact .refl _

theorem State.issueWrite_kept (s : State) (n : Fin 128) (p a : Nat) (d : Bytes) (w : WriteFor) :
    s.KeptAll (s.issueWrite n p a d w).2 := by
  unfold State.issueWrite
  dsimp only
  split
  · exact (State.KeptAll.updFab _ _).trans (State.writeOut_kept _ _)
  · exact .updFab _ _

theorem State.ringWrite_kept (s : State) (n : Fin 128) (a : Nat) (d : Bytes) (w : WriteFor) :
    s.KeptAll (s.ringWrite n a d w).2 := by
  unfold State.ringWrite
  dsimp only
  split
  · exact (State.countCheck_kept _ _).trans (State.issueWrite_kept _ _ _ _ _ _)
  · exact (State.countCheck_kept _ _).trans (State.failInst_kept _ _ _ _)

theorem State.noteLast_kept (s : State) (h : Held) (i : Nat) (c : Bool) : s.KeptAll (s.noteLast h i c) := by
  unfold State.noteLast
  split
  · refine ⟨⟨rfl, rfl, rfl, rfl, rfl, rfl, fun m => ?_, rfl, rfl, rfl, rfl, rfl, rfl, rfl, rfl, id⟩, rfl, rfl, rfl⟩
    rw [State.updSq_at]
    split <;> rfl
  · exact .refl _

theorem State.pushCq_kept (s : State) (q : Fin 256) (h : Held) : s.KeptAll (s.pushCq q h) := by
  unfold State.pushCq
  dsimp only
  split
  · exact State.ringWrite_kept _ _ _ _ _
  · exact ((State.ringWrite_kept _ _ _ _ _).trans (.updCq _ _ _)).trans (State.noteLast_kept _ _ _ _)

theorem State.postCq_kept (s : State) (q : Fin 256) (h : Held) : s.KeptAll (s.postCq q h) := by
  unfold State.postCq
  dsimp only
  split
  · exact State.pushCq_kept _ _ _
  · exact .updCq _ _ _

theorem State.complete_kept (s : State) (n : Fin 128) (g : Fin 512) (q : Fin 256) (tag : Nat) (irq : Bool) (st : Status)
    (r : Nat) (x : Bool) : s.KeptAll (s.complete n g q tag irq st r x) := by
  unfold State.complete
  exact (State.postCq_kept _ _ _).trans (.unreserve _ _)

theorem State.freeUnits_kept (s : State) (j : Job) : s.KeptAll (s.freeUnits j) := by
  unfold State.freeUnits
  repeat' split
  all_goals first
    | exact .updEng _ _ _
    | exact .refl _

theorem State.cancelFwd_kept (s : State) (j : Job) : s.KeptAll (s.cancelFwd j) := by
  unfold State.cancelFwd
  split
  · exact .cascadeSend _ _ _
  · exact .refl _

theorem State.dropMarks_kept (s : State) (j : Job) : s.KeptAll (s.dropMarks j) :=
  ⟨⟨rfl, rfl, rfl, rfl, rfl, rfl, fun _ => rfl, rfl, rfl, rfl, rfl, rfl, rfl, rfl, rfl, id⟩, rfl, rfl, rfl⟩

theorem State.retire_kept (s : State) (j : Job) (st : Status) (r : Nat) : s.KeptAll (s.retire j st r) := by
  have h : s.KeptAll ((((s.freeUnits j).dropMarks j).cancelFwd j).setJobs (s.jobs.filter (·.id != j.id))) :=
    (((State.freeUnits_kept _ _).trans (State.dropMarks_kept _ _)).trans (State.cancelFwd_kept _ _)).trans (.setJobs _ _)
  unfold State.retire
  refine h.trans ?_
  generalize (((s.freeUnits j).dropMarks j).cancelFwd j).setJobs (s.jobs.filter (·.id != j.id)) = s1
  refine (State.KeptAll.updInst s1 j.inst fun i => Inst.settle { i with outstanding := i.outstanding - 1 }).trans ?_
  dsimp only
  generalize (s1.updInst j.inst fun i => Inst.settle { i with outstanding := i.outstanding - 1 }) = s2
  repeat' split
  · exact (State.KeptAll.unreserve _ _).trans (.countInst _ _ _)
  · exact .unreserve _ _
  · exact State.complete_kept _ _ _ _ _ _ _ _ _

theorem State.endJob_kept (s : State) (j : Job) (st : Status) (r : Nat) : s.KeptAll (s.endJob j st r) := by
  unfold State.endJob
  dsimp only
  split
  · exact (State.retire_kept _ _ _ _).trans (State.KeptAll.each (fun _ _ => State.retire_kept _ _ _ _) _ _)
  · exact State.retire_kept _ _ _ _

theorem State.finish_kept (s : State) (j : Job) (st : Status) (r : Nat) : s.KeptAll (s.finish j st r) := by
  unfold State.finish
  split
  · exact .updJob _ _ _
  · exact State.endJob_kept _ _ _ _

/-! ## Jobs that wait are served -/

/-- Where nothing waits, nothing is served. -/
theorem State.serveWaiting_none (h : s.NoneWait) : s.serveWaiting = s := by
  have hu : s.jobs.filter (fun j => j.unplaced && !(j.tc && s.rebuilding j.inst)) = [] :=
    List.filter_eq_nil_iff.mpr fun j hj => by simp [(h.1 j hj).2]
  have hc : s.jobs.filter (·.phase == .context) = [] :=
    List.filter_eq_nil_iff.mpr fun j hj => by simpa using (h.1 j hj).1
  simp only [State.serveWaiting, State.each, hu, hc, h.2, List.map_nil, List.foldl_nil, List.append_nil, List.mergeSort_nil]

/-! ## Keys are erased -/

theorem State.emptySlot_kept (s : State) (i e : Nat) : s.KeptAll (s.emptySlot i e) := by
  unfold State.emptySlot
  split
  · exact .refl _
  · dsimp only
    exact .upd

theorem State.emptySlots_kept (s : State) (p : Slot → Bool) (e : Nat) : s.KeptAll (s.emptySlots p e) :=
  State.KeptAll.each (fun _ _ => State.emptySlot_kept _ _ _) _ _

theorem State.failStale_kept (s : State) : s.KeptAll s.failStale :=
  State.KeptAll.each (fun _ _ => State.endJob_kept _ _ _ _) _ _

theorem State.closeSession_kept (s : State) (k : Fin 8) : s.Kept (s.closeSession k) :=
  ⟨rfl, rfl, rfl, rfl, rfl, rfl, fun _ => rfl, rfl, rfl, rfl, rfl, rfl, rfl, rfl, rfl, id⟩

theorem State.eraseCache_kept (s : State) (e : Nat) : s.Kept (s.eraseCache e) := by
  unfold State.eraseCache State.closeSessions
  have h1 : s.KeptAll ((s.staleResolving fun _ => true).staleLoose) := .upd
  have h := ((h1.trans (State.emptySlots_kept _ (fun _ => true) e)).trans (State.failStale_kept _)).1
  exact (h.trans (State.KeptAll.updKeys _ _).1).trans
    (State.Kept.each (fun _ _ => State.closeSession_kept _ _) _ _)

theorem State.emptyEdge_kept (s : State) (p : EdgeEntry → Bool) : s.Kept (s.emptyEdge p) :=
  ⟨rfl, rfl, rfl, rfl, rfl, rfl, fun _ => rfl, rfl, rfl, rfl, rfl, rfl, rfl, rfl, rfl, id⟩

theorem State.zeroise_kept (s : State) : s.Kept s.zeroise :=
  ⟨rfl, rfl, rfl, rfl, rfl, rfl, fun _ => rfl, rfl, rfl, rfl, rfl, rfl, rfl, rfl, rfl, fun _ => rfl⟩

theorem State.eraseKeys_kept (s : State) (e : Nat) : s.Kept (s.eraseKeys e) :=
  (State.eraseCache_kept s e).trans ((State.emptyEdge_kept _ _).trans (State.zeroise_kept _))

/-- The erasure raises KB_ZEROISE and leaves no edge key (R67, R115). -/
theorem State.eraseKeys_zeroise (s : State) (e : Nat) : (s.eraseKeys e).pins.kbZeroise = true := rfl
theorem State.eraseKeys_edge (s : State) (e : Nat) : (s.eraseKeys e).edge.table = [] := by
  simp [State.eraseKeys, State.zeroise, State.emptyEdge]

end Sys2Proof.Machine
end

