-- ==== Sys2Proof/Laws/Port.lean ====
section
/-! SUPPORT. What an access to the register target port can do (R60, R61, R492). -/

namespace Sys2Proof.Machine

variable {s : State} {a : Tgt} {page : Option (Fin 128)} {c : Bool} {f : State → State}

theorem State.access_admitted (hp : s.portTakes a = true) (hq : admitted a page = true) :
    s.access a page true c f = f (if c then s.admittedAt else s.answeredAt) := by
  simp [State.access, hp, hq]

theorem State.access_refused (hp : s.portTakes a = true) (hq : admitted a page = false) :
    s.access a page true c f = (s.count 0x201E 1).portRefuse a := by
  simp [State.access, hp, hq]

theorem State.access_unserved (hp : s.portTakes a = true) :
    s.access a page false c f = (s.count 0x201E 1).portError := by
  simp [State.access, hp]

theorem State.access_turned {b : Bool} (hp : s.portTakes a = false) : s.access a page b c f = s.portTurned := by
  simp [State.access, hp]

theorem State.access_silent {b : Bool} (hp : s.portAnswers = false) : s.access a page b c f = s := by
  simp [State.access, State.portTakes, State.portClean, State.portTurned, hp]

theorem State.regWrite_admitted (hp : s.portTakes a = true) (hb : s.pwr.boot = .ready) (hq : admitted a page = true) :
    s.regWrite a page f = f s.admittedAt := by
  simp [State.regWrite, hb, State.access_admitted hp hq]

theorem State.regWrite_refused (hp : s.portTakes a = true) (hb : s.pwr.boot = .ready) (hq : admitted a page = false) :
    s.regWrite a page f = (s.count 0x201E 1).portRefuse a := by
  simp [State.regWrite, hb, State.access_refused hp hq]

theorem State.regWrite_unserved (hp : s.portTakes a = true) (hb : s.pwr.boot ≠ .ready) :
    s.regWrite a page f = (s.count 0x201E 1).portError := by
  simp [State.regWrite, beq_eq_false_iff_ne.mpr hb, State.access_unserved hp]

theorem State.wholeWrite_admitted (hp : s.portTakes a = true) (hb : s.pwr.boot = .ready) (hq : admitted a page = true) (hw : a.width = .full) :
    s.wholeWrite a page f = f s.admittedAt := by
  simp [State.wholeWrite, State.access, hp, hb, hq, hw]

theorem State.wholeWrite_part (hp : s.portTakes a = true) (hb : s.pwr.boot = .ready) (hq : admitted a page = true) (hw : a.width ≠ .full) :
    s.wholeWrite a page f = s.answeredAt.portError := by
  simp [State.wholeWrite, State.access, hp, hb, hq, hw]

theorem State.rtWrite_admitted (hp : s.portTakes a = true) (hb : s.pwr.boot = .ready) (hq : admitted a none = true) :
    s.rtWrite a f = f s.answeredAt := by
  simp [State.rtWrite, hb, State.access_admitted hp hq]

theorem State.rtWrite_refused (hp : s.portTakes a = true) (hb : s.pwr.boot = .ready) (hq : admitted a none = false) :
    s.rtWrite a f = (s.count 0x201E 1).portRefuse a := by
  simp [State.rtWrite, hb, State.access_refused hp hq]

theorem State.rtWrite_unserved (hp : s.portTakes a = true) (hb : s.pwr.boot ≠ .ready) :
    s.rtWrite a f = (s.count 0x201E 1).portError := by
  simp [State.rtWrite, beq_eq_false_iff_ne.mpr hb, State.access_unserved hp]

theorem State.clearWrite_admitted (hp : s.portTakes a = true) (hb : s.pwr.boot = .ready ∨ s.pwr.boot = .romMode)
    (hq : admitted a none = true) : s.clearWrite a f = f s.admittedAt := by
  have : (s.pwr.boot == .ready || s.pwr.boot == .romMode) = true := by rcases hb with h | h <;> simp [h]
  rw [State.clearWrite, this]
  exact State.access_admitted hp hq

/-- A counter changes nothing but the counters. -/
theorem State.countBy_frame (s : State) (i k v : Nat) : s.countBy i k v = { s with cnt := (s.countBy i k v).cnt } := rfl

/-- A served and admitted access changes, before its effect, only the counters, the answer and the cause that ends COAST. -/
theorem State.admittedAt_frame (s : State) :
    s.admittedAt = { s with cnt := (s.count 0x201E 1).cnt, pins := { s.pins with tgtRsp := true, tgtErr := false }
                            pwr := { s.pwr with coastCause := s.pwr.coastCause || s.pwr.state == .coast } } := rfl

/-- A refused access changes only the counters and the answer (R61). -/
theorem State.portRefuse_frame (s : State) (a : Tgt) :
    s.portRefuse a = { s with cnt := (s.portRefuse a).cnt
                              pins := { s.pins with tgtRsp := true, tgtErr := true, tgtRdata := 0#64 } } := rfl

end Sys2Proof.Machine
end

