-- ==== Sys2Proof/Laws/Service.lean ====
section
/-! SUPPORT. A request while the dictionary service is idle (R345, R348, R353): what `State.request` can do. -/

namespace Sys2Proof.Machine

/-- The access that writes MB_REQ is answered, the request reaches the tandems through its exchange, and COAST is to end. -/
def State.sampled (s : State) (w : Who) (r : DReq) : State :=
  (s.answeredAt.exchange 0 (.request w r)).updPwr fun p => { p with coastCause := p.coastCause || p.state == .coast }

/-- The state in which the service runs request r of w: the access answered and the mailbox BUSY, or COAST to end where a
session's request needs an engine. -/
def State.taken (s : State) (w : Who) (r : DReq) : State :=
  (match w with
    | .session _ => s.wakeFor r
    | _ => (s.sampled w r).updDict fun d => d.updBox w fun m => { m with busy := true, done := false }).updDict fun d =>
      { d with waiting := [] }

/-- The request as the service takes it. -/
def DReq.as (r : DReq) (w : Who) : DReq :=
  match w with
  | .session _ => r
  | _ => r.fit (roomOf w)

variable {s : State} {w : Who} {r : DReq}

@[simp] theorem Dict.updBox_waiting (d : Dict) (w : Who) (f : Mailbox → Mailbox) : (d.updBox w f).waiting = d.waiting := by
  cases w <;> rfl
@[simp] theorem Dict.updBox_batch (d : Dict) (w : Who) (f : Mailbox → Mailbox) : (d.updBox w f).batch = d.batch := by
  cases w <;> rfl
@[simp] theorem Dict.updBox_commit (d : Dict) (w : Who) (f : Mailbox → Mailbox) : (d.updBox w f).commit = d.commit := by
  cases w <;> rfl
@[simp] theorem Dict.updBox_appendBy (d : Dict) (w : Who) (f : Mailbox → Mailbox) : (d.updBox w f).appendBy = d.appendBy := by
  cases w <;> rfl
@[simp] theorem Dict.updBox_transfers (d : Dict) (w : Who) (f : Mailbox → Mailbox) : (d.updBox w f).transfers = d.transfers := by
  cases w <;> rfl

theorem State.Idle.port (h : s.Idle w) : s.portAnswers = true := by
  have := h.1; simp [State.alive] at this; exact this.1

theorem State.Idle.boot (h : s.Idle w) : s.pwr.boot = .ready := by
  have := h.1; simp [State.alive] at this; exact this.2

theorem State.sampled_dict (s : State) (w : Who) (r : DReq) : (s.sampled w r).dict = s.dict := by simp [State.sampled, State.answeredAt]
theorem State.sampled_jnl (s : State) (w : Who) (r : DReq) : (s.sampled w r).jnl = s.jnl := by simp [State.sampled, State.answeredAt]

/-- A request of a mailbox that is not BUSY. -/
theorem State.startRequest_idle (hb : s.dictBusy = false) (hbatch : s.dict.batch = none) (hwait : s.dict.waiting = [])
    (m : Mailbox) (hm : s.dict.box w = some m) (hmb : m.busy = false) :
    (s.count 0x201E 1).startRequest w r =
      let t := ((s.sampled w r).updDict fun d => d.updBox w fun m => { m with busy := true, done := false }).updDict fun d =>
        { d with waiting := [] }
      t.settle w (t.operate w (r.fit (roomOf w)) (roomOf w)) := by
  have hm' : (s.count 0x201E 1).dict.box w = some m := hm
  simp only [State.startRequest, hm', hmb, Bool.false_eq_true, if_false]
  simp only [State.dictBusy, Bool.or_eq_false_iff] at hb
  simp only [State.serveDict, State.enqueue, Dict.work]
  have hd : (s.count 0x201E 1).portOk.dict = s.dict := rfl
  simp [hd, hwait, hbatch, dictTurns, State.dictTurn, State.dictBusy, hb]
  rfl

theorem State.wakeFor_keeps (s : State) (r : DReq) : (s.wakeFor r).dict = s.dict ∧ (s.wakeFor r).jnl = s.jnl := by
  unfold State.wakeFor; split <;> exact ⟨rfl, rfl⟩

/-- A request whose words are clean starts in its mailbox. -/
theorem State.request_clean (hw : ∀ k, w ≠ .session k) (hc : s.boxClean w = true) (hb : s.pwr.boot = .ready) :
    s.request w r = (s.count 0x201E 1).startRequest w r := by
  have hp : s.portClean = true := by simp only [State.boxClean, Bool.and_eq_true] at hc; exact hc.1
  have hc' : (s.count 0x201E 1).boxClean w = true := hc
  have hb' : (s.count 0x201E 1).boxServed w = true := by simp [State.boxServed, State.count, State.countBy, State.updCnt, hb]
  cases w with
  | session k => exact absurd rfl (hw k)
  | _ => simp only [State.request, hp, if_true, hb', State.throughBox, hc']

/-- A free service takes a request at once, runs it on `taken`, and answers it. -/
theorem State.request_idle (h : s.Idle w) :
    s.request w r = (s.taken w r).settle w ((s.taken w r).operate w (r.as w) (roomOf w)) := by
  obtain ⟨ha, hbox, hbusy, hbatch, hwait, hprep⟩ := id h
  have hp := h.port
  have hb := h.boot
  have hs : ∀ (v : Who), (∀ k, v ≠ .session k) → (s.dict.box v).any (fun m => !m.busy) = true →
      ∃ m, s.dict.box v = some m ∧ m.busy = false := by
    intro v _ hv
    cases hx : s.dict.box v with
    | none => simp [hx] at hv
    | some m => exact ⟨m, rfl, by simpa [hx] using hv⟩
  cases w with
  | mgr =>
    obtain ⟨hc, hbox⟩ := Bool.and_eq_true_iff.mp hbox
    obtain ⟨m, hm, hmb⟩ := hs .mgr (by simp) hbox
    have : s.request .mgr r = (s.count 0x201E 1).startRequest .mgr r := State.request_clean (by simp) hc hb
    rw [this, State.startRequest_idle hbusy hbatch hwait m hm hmb]
    rfl
  | inst n =>
    obtain ⟨hc, hbox⟩ := Bool.and_eq_true_iff.mp hbox
    obtain ⟨m, hm, hmb⟩ := hs (.inst n) (by simp) hbox
    have : s.request (.inst n) r = (s.count 0x201E 1).startRequest (.inst n) r := State.request_clean (by simp) hc hb
    rw [this, State.startRequest_idle hbusy hbatch hwait m hm hmb]
    rfl
  | session k =>
    have hk : (s.eoa.sessions[k]).any (·.opened) = true := hbox
    obtain ⟨hd, hj⟩ := State.wakeFor_keeps s r
    have : s.request (.session k) r = ((s.wakeFor r).enqueue (.single (.session k) r)).serveDict := by
      simp only [State.request, ha, hk]; rfl
    simp only [State.dictBusy, Bool.or_eq_false_iff] at hbusy
    rw [this]
    simp only [State.serveDict, State.enqueue, Dict.work]
    simp [hd, hj, hwait, hbatch, dictTurns, State.dictTurn, State.dictBusy, hbusy]
    rfl

theorem State.sampled_frame (s : State) (w : Who) (r : DReq) :
    s.sampled w r = { s with pins := { s.pins with tgtRsp := true, tgtErr := false }, cnt := (s.sampled w r).cnt
                             pwr := { s.pwr with coastCause := s.pwr.coastCause || s.pwr.state == .coast }
                             flt := (s.sampled w r).flt } := by
  unfold State.sampled State.exchange; split <;> rfl

/-- What the service takes a request on differs from s in the counters, the answer of the target port, the input log, the
cause that ends COAST, and its own state. -/
theorem State.taken_frame (s : State) (w : Who) (r : DReq) :
    s.taken w r = { s with pins := (s.taken w r).pins, pwr := (s.taken w r).pwr, cnt := (s.taken w r).cnt
                           dict := (s.taken w r).dict, flt := (s.taken w r).flt } := by
  cases w with
  | session k => simp only [State.taken, State.wakeFor]; split <;> rfl
  | _ => simp only [State.taken]; rw [State.sampled_frame]; rfl

theorem State.taken_asked (s : State) (w : Who) (r : DReq) : s.Asked (s.taken w r) := by
  cases w with
  | session k => simp only [State.taken, State.wakeFor, State.Asked]; split <;> exact ⟨rfl, rfl⟩
  | _ => simp only [State.taken, State.Asked]; rw [State.sampled_frame]; exact ⟨rfl, rfl⟩

/-- An operation with nothing withheld is performed. -/
theorem State.operate_taken (h : s.Idle w) (r₀ : DReq) (hr : ∀ st, r ≠ .bad st) (cap : Nat) :
    (s.taken w r₀).operate w r cap = (s.taken w r₀).perform w r cap := by
  have h0 := (State.taken_asked s w r₀).2
  have h1 : (s.taken w r₀).pwr.prep = none := by rw [h0]; exact h.2.2.2.2.2
  have h2 : (s.taken w r₀).pwr.boot = .ready := by rw [h0]; exact h.boot
  cases r with
  | bad st => exact absurd rfl (hr st)
  | _ => simp [State.operate, State.withheld, h1, h2]

/-- An answer is told, and reaches nothing but the service's own state. -/
theorem State.answer_told (s : State) (w : Who) (a : Ans) : (s.answer w a).Told w a.st := by
  cases w with
  | session k => exact ⟨rfl, by simp [Dict.box]⟩
  | mgr => exact ⟨rfl, by rintro m hm; cases hm; exact ⟨rfl, rfl, rfl⟩⟩
  | inst n =>
    refine ⟨rfl, ?_⟩
    intro m hm
    simp [State.answer, Dict.box, Dict.updBox] at hm
    subst hm
    exact ⟨rfl, rfl, rfl⟩

theorem State.answer_frame (s : State) (w : Who) (a : Ans) : s.answer w a = { s with dict := (s.answer w a).dict } := rfl

end Sys2Proof.Machine
end

