-- ==== Sys2Proof/WellFormed.lean ====
section
/-! DEFINITION. Well-formed commands: the operands that a signal or a field of the spec bounds. -/

namespace Sys2Proof

/-- The offload frame's descriptor is one 32-byte beat (R269). -/
def OflFrame.wf (f : OflFrame) : Bool := f.desc.length == 32

/-- Every beat of a response carries at most 64 bytes (R493). -/
def beatsWf (bs : List Beat) : Bool := bs.all fun b => b.data.length ≤ 64 && b.data.length != 0

/-- A frame of channel 96 begins with its descriptor beat (R359). -/
def EoaIn.wf (f : EoaIn) : Bool := decide (32 ≤ f.raw.length)

/-- A CAN FD frame carries 1 to 64 bytes (R361). -/
def EoaIn.canWf (f : EoaIn) : Bool := decide (32 < f.raw.length ∧ f.raw.length ≤ 96)

/-- CTR has 8 bytes, and a body at most 16,448 (R483). -/
def CasHead.wf (h : CasHead) : Bool := decide (h.ctr < 2 ^ 64 ∧ h.wire.length ≤ 16464)

/-- R72: WK_LAST comes with a byte. R60: the window is 2 MiB. R359, R361: frames of channel 96. R63, R269: an offload frame's
descriptor is one beat. R483: cascade frames. R493: response beats. -/
def Instr.wf : Instr → Bool
  | .wakeFrame b last _ => !last || b.length != 0
  | .registerWrite _ addr _ _ => addr < 2 ^ 21
  | .ringReadReturn _ bs _ => beatsWf bs
  | .fabricReadResponse _ bs => beatsWf bs
  | .edgeVerify f => f.wf
  | .edgeGenerate f => f.wf
  | .reservedChannelFrame f => decide (97 ≤ f.chan.val)
  | .hello f => f.wf
  | .finish f => f.wf
  | .request f => f.wf
  | .close f => f.wf
  | .firstFrame f => f.canWf
  | .consecutiveFrame f => f.canWf
  | .flowControl f => f.canWf
  | .enrol1 h | .enrol2 h _ | .enrol3 h _ | .pairKeys h _ _ | .heartbeat h | .heartbeatAck h | .capacity h _ => h.wf
  | .fwdJob h _ _ | .fwdResult h _ _ | .fwdCancel h _ => h.wf
  | .slotInstall h _ _ _ _ _ _ | .slotCommit h _ | .slotConfirm h _ | .slotRefuse h _ => h.wf
  | _ => true

end Sys2Proof
end

