-- ==== Sys2Proof/Tests/Slice0.lean ====
section
/-! SUPPORT. Tests: an ill-formed term for each check of `Instr.wf`, one step of each family on small states with results
taken from the spec, and for every obligation with hypotheses a state and operands that meet them, clause by clause. -/

namespace Sys2Proof.Tests

open Sys2Proof Sys2Proof.Machine

/-! Theorem by theorem: each `decide` may take much memory. -/
set_option Elab.async false

/-! ## Small states -/

/-- A zero run. -/
def z (n : Nat) : Bytes := List.replicate n 0#8

/-- The manager's 64-bit access, and instance 3's. -/
def mgr : Tgt := ⟨0, true, .full⟩
def in3 : Tgt := ⟨3, false, .full⟩

/-- RUN after start-up, in FIELD, with nothing configured. -/
def up : State :=
  { State.reset with pwr := { Pwr.reset with boot := .ready, dieReset := false, resident := true }
                     life := { Life.reset with fuses := 7, fuse := .field }, rng := { Rng.reset with seeded := true, tcReserve := 4096 } }

/-- The first 1 TiB is granted under colour 7. -/
def grantAll : RtEntry := ⟨0#64, 0x28070007#64, 0#64⟩
def desc3 : Desc :=
  { Desc.default with credits := 64, sqCount := 1, cqCount := 1, slotBase := 0x10, slotQuota := 64
                      colours := [1#8, 7#8, 0#8, 0#8, 0#8] }
def on3 (s : State) (f : Inst → Inst) : State := s.updInst 3 f
def sq5 (s : State) (f : Sq → Sq) : State := s.updSq 5 f
def cq2 (s : State) (f : Cq → Cq) : State := s.updCq 2 f

/-- Instance 3 ACTIVE with SQ 5 and CQ 2 enabled. -/
def ring : State :=
  let s := up.updRt fun r => { r with entries := r.entries.set 0 grantAll }
  let s := on3 s fun i =>
    { i with state := .active, live := desc3, staged := desc3, credits := 64, drawn := 64, sqBase := some 5, cqBase := some 2 }
  let s := sq5 s fun q => { q with owner := some 3, state := .enabled, base := 0x10000 }
  cq2 s fun q => { q with owner := some 3, enabled := true, base := 0x20000 }

/-- A key slot of instance 3. -/
def slotOf (usage ktype n : Nat) : Slot :=
  { owner := 3, hand := 1, usage := usage, ktype := ktype, csrc := 2, cnum := 1, fixed := z 4, shareA := List.replicate n 5#8
    shareB := List.replicate n 6#8, run := 2, pinned := true, depth := 1, limit := 0, used := 0, next := 3, stop := 100
    first := none, last := none, tlsSpent := false, root := some 1, test := false, sealedOnly := false, ownerLabel := []
    path := [], used_at := 0, evicting := none, movedIn := false }
def withSlot (s : State) (i : Nat) (x : Slot) : State := s.updKeys fun k => { k with slots := [(i, x)] }

/-- An entry of `n` units: opcode, algorithm, OPSPEC and key, then bytes put at offsets. -/
def entry (n op alg spec key : Nat) (l : List (Nat × Bytes)) : Bytes :=
  l.foldl (fun b p => b.take p.1 ++ p.2 ++ b.drop (p.1 + p.2.length))
    ([0#8, BitVec.ofNat 8 n] ++ toLe 2 op ++ toLe 4 0x55 ++ toLe 4 key ++ toLe 1 alg ++ [0#8] ++ toLe 2 spec ++ z (32 * n - 16))
/-- The handle of slot i at generation 1. -/
def handle (i : Nat) : Nat := i + 8192
/-- The job of an entry on SQ 5 and CQ 2 of instance 3. -/
def jobOf (raw : Bytes) : Job := (Cached.job ⟨0#32, raw, none⟩ 7 7 0 3 5 2 1 false 0xFFFF (some 2))
def jobs (s : State) (l : List Job) : State := (s.setJobs l).updFab fun f => { f with nextId := 9 }

/-- The state that follows, or s. -/
def after (c : Instr) (s : State) : State :=
  match exec c s with
  | .next t => t
  | _ => s

/-! ## Ill-formed commands -/

def frame (ch : Fin 128) (ctl : Nat) (pay : Bytes) : OflFrame := ⟨ch, z 4 ++ toLe 2 0x11 ++ toLe 2 ctl ++ toLe 8 101 ++ z 16, pay⟩

theorem test_wf_wake : Instr.wf (.wakeFrame [] true false) = false ∧ Instr.wf (.wakeFrame [1#8] true false) = true := by decide
theorem test_wf_window : Instr.wf (.registerWrite mgr 0x200000 0#64 true) = false
    ∧ Instr.wf (.registerWrite mgr 0x1FFFF8 0#64 true) = true := by decide
theorem test_wf_beats : Instr.wf (.ringReadReturn 0 [⟨.ok, z 65⟩] none) = false ∧ Instr.wf (.ringReadReturn 0 [⟨.ok, []⟩] none) = false
    ∧ Instr.wf (.fabricReadResponse 0 [⟨.ok, z 65⟩]) = false ∧ Instr.wf (.fabricReadResponse 0 [⟨.ok, []⟩]) = false
    ∧ Instr.wf (.fabricReadResponse 0 [⟨.ok, z 64⟩]) = true := by decide
theorem test_wf_frames : Instr.wf (.edgeVerify ⟨0, z 31, []⟩) = false ∧ Instr.wf (.edgeGenerate ⟨0, z 33, []⟩) = false
    ∧ Instr.wf (.edgeVerify (frame 0 0 [])) = true ∧ Instr.wf (.reservedChannelFrame (frame 96 0 [])) = false
    ∧ Instr.wf (.reservedChannelFrame (frame 97 0 [])) = true := by decide
theorem test_wf_eoa : (∀ c ∈ [Instr.hello, .finish, .request, .close], (c ⟨z 31⟩).wf = false ∧ (c ⟨z 32⟩).wf = true)
    ∧ ∀ c ∈ [Instr.firstFrame, .consecutiveFrame, .flowControl], (c ⟨z 32⟩).wf = false ∧ (c ⟨z 97⟩).wf = false ∧ (c ⟨z 96⟩).wf = true := by
  decide

/-! ## One step of each family, with results from the spec -/

/-- No row of the table gives bits. -/
theorem test_no_word : decodeTableWord 16 5 = none ∧ State.reset.withFetchWord 16 5 = State.reset := ⟨rfl, rfl⟩
/-- R3: IDENT. -/
theorem test_ident : up.readRegister mgr 0 = some 0x4B57640042010003#64 := by decide
/-- R46: outputs at reset. -/
theorem test_reset_outputs : State.reset.pins.kbZeroise = true ∧ State.reset.pins.pmStateReq = 0b10#2 := by decide
/-- R61: a page of another instance is refused. -/
theorem test_page_refused : (after (.drain ⟨4, false, .full⟩ 3) ring).pins.tgtErr = true
    ∧ ((after (.drain ⟨4, false, .full⟩ 3) ring).inst 3).fence = none := by decide
/-- R330: a checked RT_ATTR write of 4 KiB at 4 KiB is enabled; SIZE 41 is BAD. -/
theorem test_region : ((after (.rtAttrWrite mgr 1 0x0C000001#64) up).rt.entries[1]).en = true
    ∧ ((after (.rtAttrWrite mgr 1 0x29000001#64) up).rt.entries[1]).attr = 0x29000008#64 := by decide
/-- R183: a HEAD beyond TAIL only sets HEAD_ERR. -/
theorem test_head : ((after (.headWrite in3 3 0 1#64 false) ring).cq 2).headErr = true
    ∧ ((after (.headWrite in3 3 0 1#64 false) ring).cq 2).head = 0#32 := by decide
/-- R290: DF_DATA outside OPEN is ignored. -/
theorem test_df_ignored : ((after (.dfData in3 3 5#64) ring).inst 3).df = (ring.inst 3).df := by decide
/-- R171: the poll reads the 64-byte line of the next unit. -/
theorem test_poll : (after (.sqPoll 5) ring).disp.polls = 1
    ∧ (((after (.sqPoll 5) ring).sq 5).reading).map (·.units) = some 2 := by decide
/-- R213: a NOP completes, and its completion is on its way to CQ 2. -/
theorem test_nop : (after (.nop 7) (jobs ring [jobOf (entry 1 1 0 0 0 [])])).jobs = []
    ∧ (after (.nop 7) (jobs ring [jobOf (entry 1 1 0 0 0 [])])).fab.writes.map (·.addr) = [0x20000] := by decide
/-- R345: an object that does not exist, and a subindex that does not. -/
theorem test_read_status : (after (.read .mgr 0x9999 1) up).dict.last = .noObject
    ∧ (after (.read .mgr 0x1000 9) up).dict.last = .noSubindex := by decide
/-- R341: subindex 0 of 0x1000 is the highest subindex. -/
theorem test_read_highest : (after (.read .mgr 0x1000 0) up).dict.readout = [5#8] := by decide
/-- R133: CREATE of an instance that is not FREE. -/
theorem test_create : (after (.create .mgr 3) ring).dict.last = .stateConflict := by decide
/-- R141: after the hand 4,095 comes 1. -/
theorem test_hand : ((after (.reset .mgr 3) (on3 ring fun i => { i with hand := 4095 })).inst 3).hand = 1 := by decide
/-- R475: an invalid frame is counted. -/
theorem test_wake : (after (.wakeFrame [1#8] true false) (up.updPwr fun p => { p with state := .freewheel })).sentry.invalid = 1 := by decide
/-- R75, R86: a TAMPER input zeroes the vault. -/
theorem test_tamper : (after (.tamper 0 true) (up.updVault fun v => { v with bootEpoch := 5 })).vault = Vault.zero := by decide +kernel
/-- R231: the pulse is a cycle start; one too early is counted. -/
theorem test_cycle : (after .tbCycle up).disp.lastCycle = some 0
    ∧ (after .tbCycle (after .tbCycle up)).cnt.now.lookup (0x201F * 16 + 1) = (after .tbCycle up).cnt.now.lookup (0x201F * 16 + 1) := by
  decide

/-! ## Witnesses: a state and operands that meet the hypotheses of each obligation, one conjunct a clause -/

def rd (id len : Nat) (w : ReadFor) : Rd := ⟨id, 3, false, 0, 64, len, w, true, false⟩
def wr (id : Nat) (w : WriteFor) : Wr := ⟨id, 3, false, 0, 64, z 4, w, false, true, false⟩
def wrs (s : State) (l : List Wr) : State := s.updFab fun f => { f with nextId := 9, writes := l }

theorem witness_stepRunsFront : ({ ring with pending := [.irqAccept] } : State).pending = [.irqAccept] := rfl
/-- What start-up meets where everything passes. -/
def bootIn : BootIn :=
  ⟨false, true, true, true, true, ⟨false, 1, true, 8, 0x10#8, false, [1#8], 2 ^ 30, 1, true⟩, true, 0, false⟩
def starting (s : State) : State := s.updPwr fun p => { p with starting := some (bootIn, none) }
def phase (n : BootStep) (s : State) : State := (starting s).updPwr fun p => { p with bootStep := n, boot := .held }
/-- No direct-feed session waits for an engine. -/
def noWaits (s : State) : Bool := s.insts.toList.all fun i => !i.df.waits
theorem noWaits_inst {s : State} (h : noWaits s = true) (n : Fin 128) : (s.inst n).df.waits = false := by
  have := List.all_eq_true.mp h (s.inst n) (by simp [State.inst])
  simpa using this
theorem witness_idleStep : (ring.pending = [] ∧ ring.pwr.starting = none ∧ ring.jnl.s0Init = none ∧ ring.jnl.headDue = none ∧ ring.card.init = none
      ∧ (∀ n, (ring.inst n).df.waits = false) ∧ (ring.pins.pmDownReq = true → ring.pwr.prep ≠ none))
    ∧ (∀ n : BootStep, (phase n ring).pending = [] ∧ (phase n ring).pwr.starting = some (bootIn, none) ∧ (phase n ring).pwr.bootStep = n
      ∧ (phase n ring).jnl.headDue = none ∧ (phase n ring).jnl.s0Init = none) :=
  ⟨⟨rfl, rfl, rfl, rfl, rfl, noWaits_inst (by decide +kernel), by decide⟩, fun _ => ⟨rfl, rfl, rfl, rfl, rfl⟩⟩
theorem witness_tableStaysGood : State.reset.TableGood ∧ ∃ t, step State.reset = .next t := by
  refine ⟨fun e => ?_, _, rfl⟩
  have h : State.reset.rt.entries[e] = ⟨0#64, 0#64, 0#64⟩ := by simp [State.reset, Rt.reset]
  simp only [RtEntry.Good, RtEntry.en, h]
  decide
theorem witness_portIsolation : up.portTakes in3 = true ∧ up.pwr.boot = .ready ∧ in3.mgr = false ∧ in3.inst ≠ 4
    ∧ (fits in3 0x40010 = true ∧ (regAt (0x40010 / 8 * 8)).any (fun r => r != .ident && r.page != some in3.inst) = true) := by decide
def booted (b : Boot) : State := up.updPwr fun p => { p with boot := b }
theorem witness_portBeforeReady : (∀ b ∈ [Boot.held, .dead, .romMode], (booted b).portTakes mgr = true ∧ (booted b).pwr.boot = b)
    ∧ (mgr.mgr = true ∧ mgr.width ≠ .high)
    ∧ (up.portClean = true ∧ (⟨3, false, .other⟩ : Tgt).width = .other) := by decide
theorem witness_identFixed : up.portTakes mgr = true ∧ up.pwr.boot = .ready ∧ (⟨0, true, .high⟩ : Tgt).width = .high := by decide
theorem witness_labelWrite : up.Served mgr none ∧ mgr.width ≠ .high := by unfold State.Served; decide
theorem witness_pageWrites : (ring.Served in3 (some 3) ∧ in3.width ≠ .high)
    ∧ (let s := on3 ring fun i => { i with fence := some 0 }; (s.inst 3).fence = some 0 ∧ s.drained 3 0 = true)
    ∧ (let s := wrs (on3 ring fun i => { i with fence := some 5 }) [wr 4 (.data 1 5)]
      (s.inst 3).fence = some 5 ∧ wr 4 (.data 1 5) ∈ s.fab.writes ∧ (wr 4 (.data 1 5)).inst = 3
        ∧ (wr 4 (.data 1 5)).what.isLog = false ∧ (wr 4 (.data 1 5)).id < 5) := by unfold State.Served; decide
theorem witness_regionWrites : ring.Served mgr none ∧ mgr.width = .full ∧ ring.rt.entries[1].en = false
    ∧ ring.rt.entries[0].en = true ∧ (1#64 : Word).getLsbD 0 = true := by unfold State.Served; decide
theorem witness_tableFences : (up.Served mgr none ∧ mgr.width ≠ .high)
    ∧ (let s := up.updRt fun r => { r with fence := some 0 }; s.rt.fence = some 0 ∧ s.finished 0 = true)
    ∧ (let s := (up.updRt fun r => { r with fence := some 5 }).updFab fun f =>
          { f with nextId := 9, reads := [rd 4 64 (.job 1)], writes := [wr 0 (.data 1 5)] }
      s.rt.fence = some 5 ∧ (rd 4 64 (.job 1) ∈ s.fab.reads ∧ (rd 4 64 (.job 1)).id < 5)
        ∧ wr 0 (.data 1 5) ∈ s.fab.writes ∧ (wr 0 (.data 1 5)).id < 5)
    ∧ (let s := on3 (up.updRt fun r => { r with fence := some 5 }) fun i => { i with logOp := some ⟨⟨64, false, 0⟩, 0, 1, 2, false⟩ }
      s.rt.fence = some 5 ∧ (s.inst 3).logOp.any (fun o => decide (o.chk < 5)) = true) := by
  refine ⟨by unfold State.Served; decide, ⟨rfl, ?_⟩, ⟨rfl, by decide⟩, by decide⟩
  simp [State.finished]
theorem witness_snapshots : (up.Served mgr none ∧ mgr.width ≠ .high)
    ∧ (let s := up.updCnt fun c => { c with period := 1 }; s.alive = true ∧ s.cnt.period ≠ 0)
    ∧ (up.updCnt fun c => { c with busy := true }).cnt.busy = true := by unfold State.Served; decide

/-! ### Power, vault, time -/

def inState (p : PState) (s : State := up) : State := s.updPwr fun q => { q with state := p }
def prepared (p : Prep) (s : State := up) : State := s.updPwr fun q => { q with prep := some p }
def inputs (c : TmpClass) : State := { up with tamper := { up.tamper with cfg := up.tamper.cfg.set 3 ⟨c, true⟩ } }
def life (f : Lc) (s : State := up) : State := s.updLife fun l => { l with fuses := f.code, fuse := f }
def wakeKeyed : State :=
  (inState .freewheel { up with cfg := { up.cfg with wakeEnable := true, wakeCounter := 1 } }).updVault fun v =>
    { v with sentry := v.sentry.set 0 (some ⟨z 32, 0⟩) }

theorem witness_dieReset : ring.pwr.dieReset = false := by decide
theorem witness_powerLost : (up.pwr.state = .run ∧ up.pwr.dieReset = false)
    ∧ (let s := inState .coast; s.pwr.state = .coast ∧ s.pwr.dieReset = false) ∧ up.pwr.state ≠ .off
    ∧ ((inState .off).pwr.state = .off ∧ (inState .off).pins.tmpLevel ^^^ (inState .off).tamper.highMask = 0#8)
    ∧ (let s := (inState .off).updPins fun p => { p with tmpLevel := 8#8 }
      (s.pins.tmpLevel ^^^ s.tamper.highMask) &&& inputBit 3 ≠ 0#8 ∧ s.tamper.latched &&& inputBit 3 = 0#8)
    ∧ (up.pwr.state ≠ .off ∧ up.sentry.sclkAbsent = false ∧ up.sentry.onRc = true) := by decide
def coasting : State := { up with cfg := { up.cfg with coastAfter := 5 }, pwr := { up.pwr with calmSince := some 0 }, now := 5000 }
theorem coasting_sq (g : Fin 512) : coasting.sq g = Sq.reset := by simp [coasting, up, State.reset, State.sq]
theorem coasting_cq (q : Fin 256) : coasting.cq q = Cq.reset := by simp [coasting, up, State.reset, State.cq]
theorem witness_coast : coasting.coastReady = true
    ∧ (let s := (inState .coast).updPwr fun p => { p with coastCause := true }
      s.alive = true ∧ s.pwr.state = .coast ∧ s.pwr.coastCause = true ∧ s.pwr.prep = none) := by
  have h1 : coasting.ringsIdle = true := by simp only [State.ringsIdle, coasting_sq, coasting_cq]; decide +kernel
  have h2 : coasting.noTc = true := by simp only [State.noTc, coasting_sq]; decide +kernel
  refine ⟨?_, by decide⟩
  simp only [State.coastReady, State.quiet, h1, h2]
  decide +kernel
theorem witness_freewheel : (up.alive = true ∧ up.pwr.prep = none) ∧ State.reset.alive = false
    ∧ (let s := { (inState .coast).updCfg (fun c => { c with freewheelAfter := 5 }) with now := 10 ^ 13 }
      let s := s.updPwr fun p => { p with calmSince := some 0 }
      s.mayFreewheel = true)
    ∧ ((prepared ⟨true, false, false, []⟩).pwr.prep = some ⟨true, false, false, []⟩ ∧ (prepared ⟨true, false, false, []⟩).alive = true)
    ∧ (let s := prepared ⟨true, true, true, []⟩; s.prepOver ⟨true, true, true, []⟩ = true ∧ s.committed = true)
    ∧ (let s := prepared ⟨false, true, true, []⟩ (up.updPwr fun p => { p with coastCause := true });
      s.pwr.prep = some ⟨false, true, true, []⟩ ∧ s.pwr.coastCause = true)
    ∧ (let s := prepared ⟨true, false, false, []⟩ (jobs ring [jobOf (entry 1 1 0 0 0 [])])
      s.pwr.prep = some ⟨true, false, false, []⟩ ∧ s.jobs ≠ [] ∧ s.dict.waiting = [] ∧ s.dict.batch = none) := by decide
theorem witness_wakeFrames : (∀ s ∈ [inState .freewheel, up], s.pwr.state ≠ .off ∧ s.sentry.rxLast = false
      ∧ (s.sentry.rx = [] ∧ s.sentry.rxAt = none ∧ z 64 ≠ [] ∧ (z 64).length < 65 ∧ 352 ∉ s.flt.fifo))
    ∧ (let s := inState .freewheel; s.pwr.state = .freewheel ∧ s.sentry.backoff = none ∧ s.wakeOk (z 64) = false)
    ∧ (let s := { inState .freewheel with sentry := { up.sentry with backoff := some 0, lastVerify := some 0 } }
      s.sentry.backoff ≠ none ∧ s.now < 0 + 4 * 10 ^ 9)
    ∧ (up.pwr.state = .run ∧ up.pwr.prep = none ∧ up.pwr.dieReset = false)
    ∧ (let s := { inState .freewheel with sentry := { up.sentry with badTimes := List.replicate 16 0 } }
      s.sentry.backoffDue = true) := by decide
theorem witness_vaultZeroed : ((inputs .tamper).inputClass 3 = .tamper ∧ (inputs .tamper).tamper.latched &&& inputBit 3 = 0#8)
    ∧ up.life.fuse = .field ∧ (up.pwr.state ≠ .off ∧ (up.vault.upset [(0, 1#32)] []).sound = false) := by decide
theorem witness_contained : ((inputs .alarmOnly).inputClass 3 = .alarmOnly
      ∧ (inputs .alarmOnly).tamper.latched &&& inputBit 3 = 0#8)
    ∧ (let s := life .provision; s.pwr.state ≠ .off ∧ s.life.fuse ≠ .field ∧ s.tamper.sens &&& 0b0010#4 = 0#4) := by decide
def masked : State := up.updSentry fun x => { x with maskReserve := z 256 }
def maskedSlot : State := withSlot masked 0x10 (slotOf 0x13 3 32)
theorem witness_shuffle : maskedSlot.pwr.state ≠ .off ∧ maskedSlot.vault.sound = true ∧ maskedSlot.sentry.maskReserve.length = 256
    ∧ maskedSlot.keys.slot 0x10 = some (slotOf 0x13 3 32) ∧ (slotOf 0x13 3 32).shareA.length = (slotOf 0x13 3 32).shareB.length := by decide +kernel
theorem witness_faultClears : up.Served mgr none ∧ mgr.width ≠ .high := by unfold State.Served; decide
theorem witness_timeBase : up.alive = true ∧ up.cycleAccepted = true
    ∧ ({ up with disp := { up.disp with lastCycle := some 0 } } : State).cycleAccepted = false
    ∧ (up.updPins fun p => { p with tbValid := true }).timeLost false 0 = true := by decide

/-! ### Direct feed and rings -/

def dfReady : State := (withSlot ring 0x10 (slotOf 0x13 3 32)).updDf 3 fun d => { d with alg := 0x31, outLen := 32 }
def dfOpen (n : Nat) (c : Bool) : State :=
  dfReady.updDf 3 fun d => { d with state := .openS, compare := c, total := n, engine := some 16, buffer := some 0 }
def dfBusy (c : Bool) : State := (dfOpen 8 c).updDf 3 fun d =>
  { d with state := .busy, msg := toLe 8 77, expect := if c then .replicate 8 (some 3#64) else d.expect }

theorem witness_directFeedWrites : (dfReady.Served in3 (some 3) ∧ in3.width = .full)
    ∧ (0x01000000#64 : Word).getLsbD 24 = true ∧ ((0#64 : Word).getLsbD 24 = false ∧ (up.inst 3).state ≠ .active)
    ∧ ((64#64 : Word).getLsbD 24 = false ∧ (dfReady.inst 3).state = .active ∧ (dfReady.inst 3).df.setupOk false = true
      ∧ ((dfReady.updDf 3 Df.idle).dfKey 3 0).toOption = some none ∧ ((dfReady.updDf 3 Df.idle).dfEngine []).isSome
      ∧ (dfReady.updDf 3 Df.idle).dfBuffer.isSome)
    ∧ (let s := dfReady.updUnits fun u => { u with fenced := .replicate 4 true }
      (s.inst 3).state = .active ∧ (s.inst 3).df.setupOk false = true ∧ ((s.updDf 3 Df.idle).dfKey 3 0).toOption = some none
        ∧ (s.updDf 3 Df.idle).dfEngine [] = none)
    ∧ ((dfReady.inst 3).df.setupOk true = true ∧ ((dfReady.updDf 3 Df.idle).dfKey 3 (handle 0x11)).toOption = none)
    ∧ (let d := ((dfOpen 8 false).inst 3).df; d.state = .openS ∧ 8 ≤ d.free ∧ d.msg.length + 8 ≤ d.total
      ∧ d.msg.length + 8 = d.total ∧ d.expectOk = true ∧ d.msg.length + 0 ≠ d.total)
    ∧ (let d := ((dfOpen 7 false).inst 3).df; d.state = .openS ∧ 8 ≤ d.free ∧ d.total < d.msg.length + 8)
    ∧ (let d := (((dfOpen 64 false).updDf 3 fun d => { d with buffered := 996 }).inst 3).df; d.state = .openS ∧ d.free < 8)
    ∧ (let d := ((dfOpen 8 true).inst 3).df; d.state = .openS ∧ d.compare = true)
    ∧ (dfReady.inst 3).df.state ≠ .openS ∧ dfReady.flt.fifo = [] := by unfold State.Served; decide +kernel
theorem witness_directFeedEnds : (∀ c, (dfBusy c).NoneWait) ∧ (∀ c, ((dfBusy c).inst 3).df.engine = some (16 : Fin 36).val
      ∧ (dfBusy c).units.eng[16].inject = false)
    ∧ (let d := ((dfBusy false).inst 3).df; d.state = .busy ∧ d.compare = false ∧ d.running = true)
    ∧ (let d := ((dfBusy true).inst 3).df; d.state = .busy ∧ d.compare = true) := by
  refine ⟨fun c => ⟨?_, ?_⟩, by decide +kernel, by decide, by decide⟩ <;> cases c <;> decide

def rread (disc : Bool) (at_ units skip : Nat) : RingRead := ⟨[8], BitVec.ofNat 32 at_, units, skip, disc⟩
def reading (r : RingRead) : State := sq5 ring fun q => { q with reading := some r }
def unitOf (b : Nat) : Bytes := [BitVec.ofNat 8 b, 1#8] ++ z 30

theorem witness_ringHolds : (ring.Served in3 (some 3) ∧ in3.width = .full ∧ ring.sqOf 3 0 = some 5)
    ∧ (let s := on3 (reading (rread false 0 2 0)) fun i => { i with invalSq := 0 }
      s.sqOf 3 (s.inst 3).invalSq = some 5 ∧ (s.sq 5).reading.any (·.discard) = false)
    ∧ (let s := on3 (reading (rread true 0 2 0)) fun i => { i with invalSq := 0 }
      s.sqOf 3 (s.inst 3).invalSq = some 5 ∧ (s.sq 5).reading.any (·.discard) = true) := by unfold State.Served; decide

def wrote (f : Cq → Cq) : State := cq2 ring fun c => f { c with tail := 9#32, head := 2#32, counted := 1 }
theorem witness_completionRing :
    (let s := wrote id;
      (s.cq 2).owner = some 3 ∧ s.Served in3 (some 3) ∧ in3.width ≠ .high ∧ s.cqOf 3 0 = some 2
      ∧ ((5#32 : Half) - (s.cq 2).head).toNat ≤ ((s.cq 2).tail - (s.cq 2).head).toNat ∧ (s.cq 2).overflow = []
      ∧ (∀ g ∈ s.sqsOf 3, (s.sq g).state ≠ .draining ∧ (s.sq g).state ≠ .deferred ∧ (s.sq g).bad = none)
      ∧ ((s.cq 2).tail - (s.cq 2).head).toNat < ((1#32 : Half) - (s.cq 2).head).toNat
      ∧ ({ s.cq 2 with armed := true } : Cq).irqReady = true ∧ (s.cq 2).irqReady = false)
    ∧ ({ (wrote fun c => { c with acks := [3] }).cq 2 with armed := true } : Cq).irqReady = false
    ∧ ((wrote fun c => { c with armed := true }).cq 2).irqReady = true
    ∧ (let s := (wrote fun c => { c with overflow := [⟨z 32, false, 3, none⟩] })
      (s.cq 2).overflow ≠ [] ∧ (s.inst 3).state = .active)
    ∧ (up.irq.shown = none ∧ ({ up with irq := ⟨some (3, 1), []⟩ } : State).irq.shown.isSome)
    ∧ (let c := (wrote fun c => { c with armed := true, irqNow := ⟨0, 5, 7⟩, timer := true }).cq 2
      c.timer = true ∧ c.irqNow.delay ≠ 0 ∧ c.armed = true ∧ c.counted ≠ 0 ∧ c.acks = []) := by
  unfold State.Served; decide +kernel

def line5 : Nat := (ring.sq 5).base
/-- SQ 5 is named by window 1, on, with offset 0, and the cycle began at 0. -/
def windowed (at_ : Nat) : State :=
  { ring with cfg := { ring.cfg with windows := ring.cfg.windows.set 1 ⟨5, 0, true, none⟩ }, now := at_
              disp := { ring.disp with lastCycle := some 0, winBase := some 0, winCycle := 1000 } }
theorem witness_ringPolls : ((ring.sq 5).owner = some 3 ∧ ring.mayPoll 5 = true ∧ 5 ∉ ring.disp.waiting
      ∧ (ring.sq 5).base + 0 = line5 ∧ split4k line5 64 = [(line5, 64)])
    ∧ (ring.disp.polls < 25 ∧ ring.windowNear 5 = false ∧ ring.granted 3 line5 64 false = true)
    ∧ (let s := { ring with disp := { ring.disp with polls := 25 } }
      s.mayPoll 5 = true ∧ s.windowNear 5 = false ∧ ¬ ((s.inst 3).isTc = true ∨ s.disp.polls < 25))
    ∧ (let s := ring.updRt fun _ => Rt.reset
      s.mayPoll 5 = true ∧ s.windowNear 5 = false ∧ s.granted 3 line5 64 false = false ∧ (s.sq 5).walking = false)
    ∧ (windowed 0).windowNear 5 = true
    ∧ ((windowed 300).windowsTo 1 = [1] ∧ (windowed 300).cfg.windows[1].sq = 5 ∧ (windowed 300).mayPoll 5 = true)
    ∧ ring.windowDue 1 = false ∧ ring.disp.waiting = [] := by decide +kernel

theorem witness_ringReturns :
    (let s := sq5 (reading (rread true 0 2 0)) fun q => { q with hold := some 5#32 };
      (s.sq 5).reading = some (rread true 0 2 0) ∧ s.orphan 5 = none ∧ s.allOut [8] = true ∧ s.flt.fifo = []
        ∧ (s.sq 5).again = false ∧ answers [⟨.ok, z 64⟩] 64 = true ∧ (s.sq 5).walking = false ∧ (s.sq 5).hold ≠ none)
    ∧ (worst [⟨.decode, z 64⟩] = .decode ∧ answers [⟨.decode, z 64⟩] 64 = true)
    ∧ (let s := reading (rread false 0 1 0)
      let q := s.sq 5
      q.walking = false ∧ q.state = .enabled ∧ (0#32 : Half) = q.next ∧ worst [⟨.ok, unitOf 0⟩] = .ok ∧ answers [⟨.ok, unitOf 0⟩] 32 = true
        ∧ entryPhase (z 32) ≠ phaseAt 0#32 q.size ∧ q.seen = [] ∧ entryPhase (unitOf 1) = phaseAt 0#32 q.size
        ∧ entryLen (unitOf 1) = 1 ∧ q.cached < 16 ∧ 0 < q.size ∧ ((0#32 : Half), 1) ∉ q.seen)
    ∧ (let q := (sq5 (reading (rread false 0 1 0)) fun q => { q with seen := [(0#32, 1)] }).sq 5;
      (0#32 : Half) = q.next ∧ ((0#32 : Half), 1) ∈ q.seen) := by decide +kernel

theorem witness_shutdowns : (let s := sq5 (jobs ring [jobOf (entry 1 1 0 0 0 [])]) fun q => { q with state := .draining };
      (s.sq 5).state = .draining ∧ (∀ i, s.dataOut i = false)
        ∧ ∀ j ∈ s.jobs, j.sq = 5 → j.phase = .draining → j.ending.isSome)
    ∧ (let s := sq5 ring fun q => { q with state := .deferred };
      (s.sq 5).state = .deferred ∧ (s.sq 5).slice = [] ∧ (s.sq 5).walking = false ∧ (s.sq 5).bad = none
        ∧ ∀ j ∈ s.jobs, j.sq ≠ 5) := by
  refine ⟨⟨by decide +kernel, fun i => rfl, by decide⟩, by decide +kernel⟩

/-! ### Dispatch and jobs -/

def b8 (o v : Nat) : Nat × Bytes := (o, toLe 8 v)
def b4 (o v : Nat) : Nat × Bytes := (o, toLe 4 v)
def b2 (o v : Nat) : Nat × Bytes := (o, toLe 2 v)
def b1 (o v : Nat) : Nat × Bytes := (o, toLe 1 v)
/-- SRC and its length. -/
def from_ (a n : Nat) : List (Nat × Bytes) := [b8 16 a, b4 24 n]
/-- Instance 3 may use consumer ports, KB_ZEROISE is low, root 1 and the vault's device key are there. -/
def keyed (usage ktype n : Nat) : State :=
  let s := withSlot ring 0x10 (slotOf usage ktype n)
  let s := s.updVault fun v => { v with map := true, dus := some (List.replicate 32 9#8), roots := v.roots.set 0 (some (List.replicate 32 8#8)), lcSeen := 2 }
  on3 (s.updPins fun p => { p with kbZeroise := false }) fun i => { i with live := { i.live with consumers := 0xFFFF }, outstanding := 1 }
def cbc : Bytes := entry 3 0x0110 0x10 0 (handle 0x10) (from_ 0x1000 32 ++ [b8 32 0x2000, b1 51 16])
def gcm : Bytes := entry 3 0x0100 1 0 (handle 0x10) (from_ 0x1000 32 ++ [b8 32 0x2000, b1 50 16, b8 56 0x3000, b8 80 0x4000])
def macE : Bytes := entry 3 0x0121 0x20 0 (handle 0x10) (from_ 0x1000 40 ++ [b1 50 16, b8 56 0x3000])
def hashE (n : Nat) : Bytes := entry 2 0x0200 0x31 0 0 ((if n = 0 then [] else from_ 0x1000 n) ++ [b8 32 0x2000, b2 40 32])
def deriveE : Bytes := entry 3 0x0300 0 1 0 [b1 13 1, b1 32 1, b1 33 1, b1 42 16, b4 64 0x10]
/-- The state in which SQ 5 holds these entries. -/
def cached (l : List Cached) (s : State) : State := sq5 s fun q => { q with slice := l }
def at0 (i : Nat) (raw : Bytes) : Cached := ⟨BitVec.ofNat 32 i, raw, none⟩
def chained (raw : Bytes) : Bytes := (2#8) :: raw.drop 1
def run2 : List Cached := [at0 0 (chained cbc), at0 3 (hashE 50)]
def bulkS : State := cached run2 (keyed 0x11 1 16)
def tcS : State :=
  let s := on3 bulkS fun i => { i with live := { i.live with tclass := 1 } }
  { s with units := { s.units with cs := s.units.cs.set 1 { s.units.cs[1] with owner := some 3 } } }
def chainS : State := (keyed 0x11 1 16).setJobs [{ jobOf (hashE 50) with waiting := true, member := 1 }]
def padS : State := cached [at0 0 ([0#8, 1#8] ++ z 30), at0 1 cbc] (keyed 0x11 1 16)

theorem witness_dispatches :
    (bulkS.sqsOf 3 = [5] ∧ bulkS.eligible 5 = some (3, run2, some 8) ∧ members run2 = run2
      ∧ (opInfo (le (chained cbc) 2 2)).isSome ∧ (∀ j ∈ bulkS.jobs, j.id ≠ bulkS.disp.nextJob) ∧ bulkS.bulkInsts = [3]
      ∧ (bulkS.sq 5).bad = none)
    ∧ (tcS.sqsOf 3 = [5] ∧ (tcS.eligible 5).isSome ∧ (tcS.inst 3).isTc = true ∧ tcS.rebuilding 3 = false)
    ∧ (let j : Job := { jobOf (hashE 50) with waiting := true, member := 1 };
      chainS.job j.id = some j ∧ chainS.memberTurn j = true ∧ chainS.superseded j = false ∧ j.dead = none
        ∧ entryFence j.raw = false ∧ (opInfo j.opcode).isSome)
    ∧ ((padS.sq 5).slice = [at0 0 ([0#8, 1#8] ++ z 30), at0 1 cbc] ∧ (padS.sq 5).head = .pad ∧ padS.mayDispatch 5 = true
      ∧ (padS.sq 5).bad = none) := by decide +kernel

def takes (s : State) (raw : Bytes) : State := s.setJobs [jobOf raw]
/-- What `Keyed` and `Drawn` ask of slot 0x10. -/
def usable (s : State) (j : Job) (v : Option Nat) : Prop := s.keyCheck j = .slot 0x10 ∧ ∃ x, s.keys.slot 0x10 = some x
  ∧ s.opPolicy j x = none ∧ j.slotRefused x = false ∧ (keyNeed j x).all (· ≤ le j.raw 40 4) = true
  ∧ x.limit = 0 ∧ (needsSource j.opcode j.alg = true → v.isSome ∧ s.peekValue x = v ∧ v.all (fun w => !j.valueSpent x w) = true)
def gcmS : State := takes (keyed 0x10 1 16) gcm

theorem witness_jobsBegin_derive : (let s := takes (keyed 0x11 1 16) deriveE
      s.Takes (jobOf deriveE) 0x0300 ∧ s.NoneWait
        ∧ s.keyCheck (jobOf deriveE) = .derive) := by unfold State.Takes State.NoneWait; decide +kernel
theorem witness_jobsBegin_lists : (let j := jobOf (hashE 50 |>.set 28 2#8); let s := ring.setJobs [j]; s.Takes j 0x0200
      ∧ (ring.setJobs [j]).keyCheck j = .none ∧ j.listReads false ≠ []
      ∧ (∀ f ∈ j.listReads false, ring.granted j.inst f.2.2.addr f.2.2.len false = true) ∧ s.NoneWait) := by
  unfold State.Takes State.NoneWait; decide +kernel
theorem witness_jobsBegin_data : (let j := jobOf gcm; gcmS.Takes j 0x0100 ∧ gcmS.NoneWait
      ∧ j.listReads false = [] ∧ j.group ≠ [] ∧ (∀ f ∈ j.group, gcmS.granted j.inst f.2.2.addr f.2.2.len false = true)
      ∧ engineOf 0x0100 = some .ce ∧ gcmS.engines .ce j.class ≠ [] ∧ j.len ≠ 0)
    ∧ usable gcmS (jobOf gcm) (some 3) := by
  refine ⟨by unfold State.Takes State.NoneWait; decide +kernel, by decide +kernel, slotOf 0x10 1 16, by decide +kernel⟩
theorem witness_jobsBegin_engine : (let j := jobOf (hashE 0); let s := takes ring (hashE 0); s.Takes j 0x0200 ∧ s.NoneWait ∧ s.keyCheck j = .none
      ∧ j.listReads false = [] ∧ j.group = [] ∧ engineOf 0x0200 = some .de ∧ s.engines .de j.class ≠ []
      ∧ (s.engineFor j .de).isSome) := by unfold State.Takes State.NoneWait; decide +kernel

def wrapE : Bytes := entry 2 0x0302 0 0 (handle 0x10) [b8 32 0x2000, b4 40 200, b1 44 1]
def evictE : Bytes := entry 1 0x0303 0 0 (handle 0x10) []
def deliverE : Bytes := entry 1 0x0304 0 0x0102 (handle 0x10) []
def randomE : Bytes := entry 1 0x0500 0x70 0 0 (from_ 0x1000 40)
def kbOf (job : Nat) : KbTransfer := ⟨job, 1, 2, 0#16, z 32, z 32⟩

theorem witness_jobsWithoutEngine_nop : (takes ring (entry 1 1 0 0 0 [])).Takes (jobOf (entry 1 1 0 0 0 [])) 0x0001 := by
  unfold State.Takes; decide +kernel
theorem witness_jobsWithoutEngine_evict : (let j := jobOf evictE; let s := takes (keyed 0x10 1 16) evictE; s.Takes j 0x0303 ∧ s.keyCheck j = .slot 0x10
      ∧ s.opPolicy j (slotOf 0x10 1 16) = none ∧ j.slotRefused (slotOf 0x10 1 16) = false) := by
  unfold State.Takes; decide +kernel
theorem witness_jobsWithoutEngine_deliver : (let j := jobOf deliverE; let s := takes (keyed 0x30 1 16) deliverE; s.Takes j 0x0304 ∧ s.keyCheck j = .slot 0x10
      ∧ s.opPolicy j (slotOf 0x30 1 16) = none ∧ j.slotRefused (slotOf 0x30 1 16) = false ∧ (slotOf 0x30 1 16).limit = 0
      ∧ s.pins.kb = none ∧ s.pins.kbZeroise = false ∧ ∀ k ∈ s.jobs, k.phase ≠ .busWait) := by
  unfold State.Takes; decide +kernel
theorem witness_jobsWithoutEngine_wait : (let j := jobOf deliverE; let s := (takes (keyed 0x30 1 16) deliverE).updPins fun p => { p with kb := some (kbOf 8) };
      s.Takes j 0x0304 ∧ s.keyCheck j = .slot 0x10 ∧ s.pins.kb.isSome) := by
  unfold State.Takes; decide +kernel
theorem witness_jobsWithoutEngine_random : (let j := jobOf randomE; let s := takes ring randomE; s.Takes j 0x0500 ∧ s.keyCheck j = .none ∧ s.rng.serves = true
      ∧ j.listReads false = [] ∧ s.refused j.inst (outs 2 j.dstFrags 0 (z j.len)) = none) := by
  unfold State.Takes; decide +kernel
theorem witness_jobsWithoutEngine_wrap : (let j := jobOf wrapE; let s := takes (keyed 0x10 1 16) wrapE;
      s.Takes j 0x0302 ∧ s.keyCheck j = .slot 0x10 ∧ s.keys.slot 0x10 = some (slotOf 0x10 1 16)
      ∧ s.opPolicy j (slotOf 0x10 1 16) = none ∧ j.slotRefused (slotOf 0x10 1 16) = false ∧ (s.rootKey 1).isSome
      ∧ 56 + (16 + 7) / 8 * 8 + 8 ≤ le j.raw 40 4 ∧ s.refused j.inst (outBuf 3 0x2000 (z 80)) = none) := by
  unfold State.Takes; decide +kernel

def evictS : State := (withSlot (keyed 0x10 1 16) 0x10 { slotOf 0x10 1 16 with evicting := some 7 }).setJobs
  [{ jobOf evictE with phase := .evicting, key := some 0x10 }]
def busS (p : Phase) (zero : Bool) (kb : Option KbTransfer) : State := ((keyed 0x30 1 16).setJobs
  [{ jobOf deliverE with phase := p, key := some 0x10 }]).updPins fun q => { q with kb := kb, kbZeroise := zero }
theorem witness_keyBus :
    (let j := (evictS.jobs.headD (jobOf [])); evictS.keys.slot 0x10 = some { slotOf 0x10 1 16 with evicting := some 7 } ∧ evictS.job 7 = some j
      ∧ j.phase = .evicting ∧ evictS.evictReady 0x10 7 = true ∧ 0 < 2 ∧ evictS.superseded j = false)
    ∧ (let s := busS .bus false (some (kbOf 7)); s.pins.kb = some (kbOf 7) ∧ s.job 7 = some { jobOf deliverE with phase := .bus, key := some 0x10 }
      ∧ s.superseded { jobOf deliverE with phase := .bus, key := some 0x10 } = false ∧ ∀ k ∈ s.jobs, k.phase ≠ .busWait)
    ∧ (let s := busS .busWait true none; s.job 7 = some { jobOf deliverE with phase := .busWait, key := some 0x10 }
      ∧ s.pins.kbZeroise = true ∧ s.superseded { jobOf deliverE with phase := .busWait, key := some 0x10 } = false)
    ∧ (up.alive = true ∧ ∀ k ∈ up.jobs, k.phase ≠ .busWait) := by decide +kernel

/-- CIPHER_ENC of a list of fragments under a path of one level. -/
def pathE : Bytes :=
  entry 5 0x0110 0x10 0 0 (from_ 0x1000 32 ++ [b2 28 2, b8 32 0x2000, b1 51 16, b1 13 1, b1 96 1, b1 97 1, b1 106 16, b4 128 0x11])
def resolving (raw : Bytes) (stale : Bool) : Job := { jobOf raw with phase := .resolving, stale := stale }
def resolveS (raw : Bytes) (stale : Bool) : State := (keyed 0x10 1 16).setJobs [resolving raw stale]
theorem witness_keyResolves :
    (let j := resolving deriveE true; let s := resolveS deriveE true; s.job j.id = some j ∧ s.superseded j = false ∧ s.NoneWait
      ∧ s.deriveTurn j = true ∧ j.stale = true)
    ∧ (let j := resolving deriveE false; let s := resolveS deriveE false; s.job j.id = some j ∧ s.superseded j = false
      ∧ pdRoot j.desc ≠ 0xFF ∧ (s.rootKey (pdRoot j.desc)).isSome ∧ j.opcode = 0x0300
      ∧ ((s.derivePath j).bind fun p => p.2.place j.inst 1).isSome ∧ ∀ p ∈ s.keys.slots, 0 < p.2.run)
    ∧ (let j := resolving pathE false; let s := resolveS pathE false; s.job j.id = some j ∧ s.superseded j = false
      ∧ pdRoot j.desc ≠ 0xFF ∧ (s.rootKey (pdRoot j.desc)).isSome ∧ j.opcode ≠ 0x0300 ∧ s.transient j = none
      ∧ (s.derivePath j).any (fun p => (p.2.place j.inst 1).isSome && (p.2.keyFails j (p.2.unplacedKey j.inst p.1)).isNone) = true
      ∧ j.listReads false ≠ [] ∧ j.pieces = []
      ∧ ∀ f ∈ j.listReads false, s.granted j.inst f.2.2.addr f.2.2.len false = true) := by
  unfold State.NoneWait; decide +kernel

/-! ### Ends of jobs -/

def engine (x : Fin 36) (f : Engine → Engine) (s : State := ring) : State :=
  { s with units := { s.units with eng := s.units.eng.set x (f s.units.eng[x]) } }
/-- Job 7 with its input on engine e, its key in slot 0x10 where there is one. -/
def onEng (e : Fin 36) (raw src : Bytes) (s : State := ring) (f : Job → Job := id) : State :=
  engine e (fun x => { x with contexts := [7] }) (s.setJobs
    [f { jobOf raw with phase := .data, engine := some e.val, key := some 0x10, keyCopy := s.keys.slot 0x10, src := src }])
def theJob (s : State) : Job := s.jobs.headD (jobOf [])
/-- All that JobsEnd asks before its clauses. -/
def ends (s : State) : Prop := let j := theJob s
  s.job j.id = some j ∧ (s.onEngine j).any (fun e => !s.units.eng[e].inject) = true ∧ s.superseded j = false
    ∧ s.NoneWait

def tlsO : Bytes := entry 3 0x0600 3 0 (handle 0x10) (from_ 0x1000 64 ++ [b8 32 0x2000, b1 60 16, b4 76 64])
def tlsS : Bytes := entry 3 0x0601 3 0 (handle 0x10) (from_ 0x1000 16 ++ [b8 32 0x2000, b1 60 16, b1 61 23, b4 76 200, b8 40 0x4000])
def cmpE : Bytes := entry 2 0x0201 0x31 0 0 (from_ 0x1000 50 ++ [b8 32 0x2000, b2 40 32])
def agE : Bytes := entry 1 0x0305 0x5A 0 (handle 0x10) (from_ 0x1000 32)
def expE : Bytes := entry 3 0x0405 0x60 0 0 (from_ 0x1000 8 ++ [b8 32 0x2000, b4 40 4, b8 48 0x3000, b4 56 8, b8 64 0x6000, b4 72 8])
def cbcS : State := onEng 0 cbc (z 32) (keyed 0x11 1 16)
def macE0 : Bytes := entry 3 0x0121 0x20 0 (handle 0x10) (from_ 0x1000 40 ++ [b8 56 0x3000])
def macS : State := onEng 0 macE0 (z 40) (keyed 0x12 1 16) fun j => { j with tagIn := z 16 }
def goodMac : State := onEng 0 macE0 (z 40) (keyed 0x12 1 16)
def longS : State := onEng 0 (entry 3 0x0121 0x20 0 (handle 0x10) (from_ 0x1000 5000 ++ [b1 50 16, b8 56 0x3000])) (z 4096) (keyed 0x12 1 16)
def openS : State := onEng 0 tlsO (z 64) (keyed 0x10 2 32)
def sealS : State := onEng 0 tlsS (z 16) (keyed 0x10 2 32) fun j => { j with drawn := some 0 }
/-- The record that sealS seals, opened. -/
def record : Bytes := let j := theJob sealS; (j.chunkOuts ++ j.tailOuts).flatMap fun o => if o.1 = 3 then o.2.2.2 else []
def goodS : State := onEng 0 (entry 3 0x0600 3 0 (handle 0x10) (from_ 0x1000 38 ++ [b8 32 0x2000, b1 60 16, b4 76 200])) record (keyed 0x10 2 32)
def hashS : State := onEng 16 (hashE 50) (z 50)
def cmpS : State := onEng 16 cmpE (z 50) ring fun j => { j with expect := z 32 }
def goodCmp : State := onEng 16 cmpE (z 50) ring fun j => { j with expect := j.formed }
def expS : State := onEng 24 expE (z 8) ring fun j => { j with opB := z 4, opC := z 8 }
def oddS : State := onEng 24 expE (toBe 8 7) ring fun j => { j with opB := toBe 4 3, opC := toBe 8 5 }
def agS : State := onEng 24 agE (z 32) (keyed 0x42 0x15 32)
/-- The table grants nothing any more. -/
def bare (s : State) : State := s.updRt fun _ => Rt.reset

theorem witness_jobsEnd_verified : ends goodMac ∧ (theJob goodMac).mac = (theJob goodMac).tagIn := by unfold ends State.NoneWait; decide +kernel
theorem witness_jobsEnd_verify : ends macS ∧ (let j := theJob macS; engineOf j.opcode = some .ce ∧ j.opcode = 0x0121
      ∧ j.lastChunk = true ∧ j.mac ≠ j.tagIn) := by unfold ends State.NoneWait; decide +kernel
theorem witness_jobsEnd_last : ends cbcS ∧ (let j := theJob cbcS; engineOf j.opcode = some .ce ∧ j.opcode ≠ 0x0121 ∧ j.opcode ≠ 0x0101
      ∧ j.held = false ∧ j.lastChunk = true ∧ cbcS.refused j.inst (j.chunkOuts ++ j.tailOuts) = none) := by unfold ends State.NoneWait; decide +kernel
theorem witness_jobsEnd_refused : ends (bare cbcS) ∧ ((bare cbcS).refused (theJob cbcS).inst ((theJob cbcS).chunkOuts ++ (theJob cbcS).tailOuts)).isSome := by
  unfold ends State.NoneWait; decide +kernel
theorem witness_jobsEnd_chunk : ends longS ∧ (let j := theJob longS; j.held = false ∧ j.lastChunk = false
      ∧ (longS.refused j.inst j.chunkOuts).isNone) := by unfold ends State.NoneWait; decide +kernel
theorem witness_jobsEnd_shut : ends openS ∧ (let j := theJob openS; j.held = true ∧ j.lastChunk = true ∧ j.opened = none) := by
  unfold ends State.NoneWait; decide +kernel
theorem witness_jobsEnd_opened : ends goodS ∧ (let j := theJob goodS; j.held = true ∧ j.lastChunk = true ∧ j.opened = some (z 16 ++ [23#8])
      ∧ 17 ≤ j.capacity ∧ (goodS.refused j.inst (outs 3 j.dstFrags 0 (z 17))).isNone ∧ j.layout = .proto) := by
  unfold ends State.NoneWait; decide +kernel
theorem witness_jobsEnd_digest : ends hashS ∧ ends cmpS ∧ ends goodCmp ∧ engineOf (theJob hashS).opcode = some .de
    ∧ (theJob hashS).compares = false ∧ (hashS.refused (theJob hashS).inst (outs 3 (theJob hashS).dstFrags 0 (theJob hashS).formed)).isNone
    ∧ (theJob cmpS).compares = true ∧ (theJob cmpS).formed ≠ (theJob cmpS).expect
    ∧ (theJob goodCmp).formed = (theJob goodCmp).expect := by unfold ends State.NoneWait; decide +kernel
theorem witness_jobsEnd_public : ends expS ∧ ends oddS ∧ engineOf (theJob expS).opcode = some .lf ∧ pkDraws (theJob expS).opcode = false
    ∧ (runPublic (theJob expS).work).status ≠ .ok
    ∧ (let j := theJob oddS; (runPublic j.work).status = .ok ∧ (runPublic j.work).out ≠ []
      ∧ (oddS.refused j.inst (outBuf 5 (le j.raw 64 8) (runPublic j.work).out)).isNone) := by unfold ends State.NoneWait; decide +kernel
theorem witness_jobsEnd_agree : ends agS ∧ (let j := theJob agS; engineOf j.opcode = some .lf ∧ j.opcode = 0x0305 ∧ pkDraws j.opcode = true
      ∧ agS.rng.serves = true ∧ agree j.alg j.slotKey j.src (agS.drawBlind j).1 = none)
    ∧ (let s := { agS with rng := { agS.rng with seeded := false } }; ends s ∧ s.rng.serves = false) := by unfold ends State.NoneWait; decide +kernel

/-! ### Responses, units, the edge unit -/

/-- Job 7 reading 3 KiB in pieces. -/
def readS : State := after (.hash 7) (takes ring (hashE 5000))
def logging : State :=
  (on3 ring fun i => { i with logOp := some ⟨⟨3, false, 70⟩, 0x8000, 5, 0, false⟩ }).updFab fun f =>
    { f with nextId := 6, reads := [⟨5, 3, false, 0, 0x8000, 64, .log 3, true, false⟩] }
def wrote1 (w : WriteFor) (s : State := ring) : State := s.updFab fun f => { f with nextId := 6, writes := [wr 4 w] }
def isWrite (s : State) (w : WriteFor) : Prop := s.fab.writes.find? (·.id == 4) = some (wr 4 w) ∧ (wr 4 w).logged = false
    ∧ (wr 4 w).out = true ∧ s.NoneWait ∧ s.flt.fifo = []
def keygenS : State := wrote1 (.data 7 5) ((keyed 0x10 1 16).setJobs
  [{ jobOf (entry 2 0x0402 0x40 0 0 [b8 32 0x2000, b4 40 65]) with phase := .keygen, pub := List.replicate 32 4#8, runAt := 0x30 }])
def drainS : State := wrote1 (.data 7 5) (ring.setJobs [{ jobOf cbc with phase := .draining, ending := some (.ok, 7) }])

theorem witness_fabricReads : (let j := theJob readS; readS.NoneWait ∧ readS.flt.fifo = [] ∧ readS.job j.id = some j ∧ 2 ≤ j.pieces.length
      ∧ (readS.fab.reads.head?).any (fun r => readS.fab.reads.find? (·.id == r.id) == some r && r.what == .job j.id && r.out
          && answers (List.replicate (r.len / 64) ⟨.ok, z 64⟩) r.len && answers (List.replicate (r.len / 64) ⟨.decode, z 64⟩) r.len
          && (j.pieces.find? (·.id == r.id)).isSome && j.pieces.any (fun q => q.id != r.id && q.data.isNone)) = true
      ∧ readS.superseded j = false) := by unfold State.NoneWait; decide +kernel
/-- An access that waits for a place of its port. -/
theorem witness_fabricUnissued : (let s := ring.updFab fun f => { f with nextId := 6, reads := [{ rd 5 64 (.job 7) with out := false }]
                                                                         writes := [{ wr 4 (.data 7 5) with out := false }] }
    s.NoneWait ∧ s.flt.fifo = [] ∧ s.fab.reads.find? (·.id == 5) = some { rd 5 64 (.job 7) with out := false }
      ∧ s.fab.writes.find? (·.id == 4) = some { wr 4 (.data 7 5) with out := false }) := by unfold State.NoneWait; decide +kernel
theorem witness_fabricLog : logging.NoneWait ∧ ring.NoneWait ∧ logging.flt.fifo = [] ∧ logging.fab.reads.find? (·.id == 5) = some ⟨5, 3, false, 0, 0x8000, 64, .log 3, true, false⟩
    ∧ answers [⟨.ok, z 64⟩] 64 = true ∧ (logging.inst 3).logOp = some ⟨⟨3, false, 70⟩, 0x8000, 5, 0, false⟩ ∧ worst [⟨.ok, z 64⟩] = .ok
    ∧ ring.fab.reads.find? (·.id == 0) = none ∧ ring.fab.writes.find? (·.id == 0) = none := by unfold State.NoneWait; decide +kernel
theorem witness_fabricWrites : (isWrite (wrote1 (.completion 2)) (.completion 2) ∧ ((wrote1 (.completion 2)).inst (wr 4 (.completion 2)).inst).state = .active)
    ∧ (let s := wrote1 (.writeBack 5) (sq5 ring fun q => { q with wbFlight := some 4 });
      isWrite s (.writeBack 5) ∧ (s.sq 5).wbFlight = some 4 ∧ (s.sq 5).wbDue = false)
    ∧ (isWrite (wrote1 (.log 3)) (.log 3) ∧ ((wrote1 (.log 3)).inst 3).logQ = [] ∧ (wr 4 (.log 3)).inst = 3
      ∧ ((wrote1 (.log 3)).inst 3).state = .active) := by unfold isWrite State.NoneWait; decide +kernel
theorem witness_fabricData : (isWrite drainS (.data 7 5) ∧ (let j := theJob drainS; drainS.job j.id = some j ∧ j.phase = .draining
      ∧ j.ending = some (.ok, 7) ∧ drainS.superseded j = false ∧ ∀ x ∈ drainS.fab.writes, x.id = 4))
    ∧ (isWrite keygenS (.data 7 5) ∧ (let j := theJob keygenS; keygenS.job j.id = some j ∧ j.phase = .keygen
      ∧ keygenS.superseded j = false ∧ (∀ x ∈ keygenS.fab.writes, x.id = 4) ∧ ∀ p ∈ keygenS.keys.slots, p.1 ≠ j.runAt)) := by
  unfold isWrite State.NoneWait; decide +kernel

def misses : State := { ring with units := { ring.units with misses := [(0, 0), (1, 5), (2, 9)], rebuild := true } }
theorem witness_unitsFail : (let s := engine 0 fun e => { e with strikes := 2 };
      engNo .ce 0 = some 0 ∧ s.alive = true ∧ 2 ≤ s.units.eng[0].strikes ∧ s.units.eng[0].quar = false)
    ∧ ring.units.eng[0].strikes < 2
    ∧ (let s := engine 0 (fun e => { e with contexts := [7, 8] }) cbcS; s.NoneWait ∧ s.turnOf 0 = some 7 ∧ 7 ∈ s.units.eng[0].contexts
      ∧ 2 ≤ s.occupied 0 ∧ s.units.eng[0].inject = false ∧ (∀ j ∈ s.jobs, s.superseded j = false))
    ∧ (hashS.NoneWait ∧ hashS.turnOf 16 = some 7 ∧ engineOf (theJob hashS).opcode = some .de ∧ (theJob hashS).ready = true)
    ∧ (ring.alive = true ∧ ring.units.fenced[0] = false ∧ (0 : Fin 3) ≠ 1)
    ∧ (let s := { ring with units := { ring.units with fenced := ring.units.fenced.set 2 true } }; s.units.fences = 1
      ∧ s.units.fenced[0] = false)
    ∧ misses.units.rebuild = true ∧ (misses.alive = true ∧ misses.units.alarmDue = true) ∧ ring.units.alarmDue = false
    ∧ (ring.rng.serves = true ∧ ring.rng.disagreed = 0)
    ∧ (let s := { ring with rng := { ring.rng with disagreed := 1 } }; s.alive = true ∧ s.rng.serves = true ∧ s.rng.disagreed = 1)
    ∧ (ring.alive = true ∧ ring.rng.src[0] = true ∧ ring.rng.src[1] = true)
    ∧ (let s := { ring with rng := { ring.rng with src := ring.rng.src.set 1 false } };
      s.rng.src[0] = true ∧ ∀ l : Fin 2, l ≠ 0 → s.rng.src[l] = false) := by unfold State.NoneWait; decide +kernel

/-! ### The edge unit -/

def edgeRow (mode tx mac : Nat) : EdgeEntry :=
  ⟨3, 4, 0x11, mode, mac, tx, 4, 100, 5, z 16, List.replicate 16 3#8, none, 0, 0, 0, 9⟩
/-- Entry 5 is loaded for channel 4; lane 1 is empty, or runs a frame under it. -/
def edged (x : EdgeEntry) (j : Option OflFrame) : State :=
  let s := ring.updEdge fun e => { e with table := [(5, x)], lanes := e.lanes.set 1 (j.map fun f => ⟨f, some (5, x), 0, [], false⟩) }
  { s with cfg := { s.cfg with edgeEnable := true } }
def vf : OflFrame := frame 4 0 []
def gf : OflFrame := frame 4 0x1000 []
theorem witness_edgeFrames :
    (let s := edged (edgeRow 0 64 64) none; s.oflAvail = true ∧ s.edge.queue = [] ∧ (∀ l : Fin 8, s.edge.lanes[l] = none)
      ∧ (frame 4 0x2000 []).badFormat = true ∧ vf.badFormat = false ∧ s.edgeEntry vf = some (5, edgeRow 0 64 64)
      ∧ (s.freeLane ⟨vf, none, 0, [], false⟩).isSome ∧ vf.chan.val < 96 ∧ s.flt.fifo = [] ∧ s.edgeEntry (frame 5 0 []) = none ∧ (frame 5 0 []).badFormat = false)
    ∧ (97 ≤ (frame 97 0 []).chan.val ∧ (edged (edgeRow 0 64 64) none).oflRxReady = true ∧ State.reset.oflAvail = false
      ∧ State.reset.oflRxReady = false)
    ∧ (let s := (edged (edgeRow 0 64 64) none).updEdge fun e => { e with verdicts := [(4, z 32)] }; s.oflAvail = true ∧ s.eoa.taken = 0 ∧ s.edge.verdicts ≠ [])
    ∧ (let s := (edged (edgeRow 0 64 64) none).updEoa fun e => { e with out := [z 64, z 96] }; s.oflAvail = true ∧ s.edge.verdicts = [] ∧ 0 + 32 < (z 64).length)
    ∧ (let s := (edged (edgeRow 0 64 64) none).updEoa fun e => { e with out := [z 64, z 96], taken := 32 }; s.oflAvail = true ∧ s.eoa.taken ≠ 0 ∧ (z 64).length ≤ 32 + 32)
    ∧ (let s := edged (edgeRow 0 64 0) (some vf); s.edge.lanes[1] = some ⟨vf, some (5, edgeRow 0 64 0), 0, [], false⟩
      ∧ s.units.eng[laneEng 1].inject = false
      ∧ (let y := s.entryNow 5 (edgeRow 0 64 0); y.fresh (y.candidate vf.fv) = true ∧ y.generates = false
        ∧ y.mac vf (y.candidate vf.fv) = slice vf.desc 16 (y.macBits / 8)) ∧ s.edge.queue = [])
    ∧ (let s := edged { edgeRow 0 64 64 with fvLast := 101 } (some vf); let y := s.entryNow 5 { edgeRow 0 64 64 with fvLast := 101 };
      y.fresh (y.candidate vf.fv) = false)
    ∧ (let s := edged (edgeRow 1 64 64) (some gf); let y := s.entryNow 5 (edgeRow 1 64 64);
      y.fresh (y.candidate gf.fv) = true ∧ y.generates = true) := by decide +kernel
/-- One of two MACs is wrong. -/
theorem witness_edgeFrames_wrong : let y := edgeRow 0 64 64; let g : OflFrame := { vf with desc := vf.desc.take 16 ++ List.replicate 16 1#8 };
    y.mac vf 101 ≠ slice vf.desc 16 8 ∨ y.mac g 101 ≠ slice g.desc 16 8 := by
  intro y g
  by_cases h : y.mac vf 101 = slice vf.desc 16 8
  · right
    rw [show y.mac g 101 = y.mac vf 101 from rfl, h]
    decide
  · exact .inl h
/-- The lane runs a frame a second time. -/
theorem witness_edgeFrames_twice : (⟨vf, none, 1, [], false⟩ : EdgeJob).runs ≥ 1 ∧ ring.edge.queue = [] := by decide

/-! ### The object dictionary -/

/-- An open session of a sender with these roles. -/
def session (roles : Nat) (opened : Bool) : Session :=
  ⟨7, opened, .eth (z 6) [], 0, some 1, roles, [], [], [], [], 0, 0, [], [], [], [], [], [], [], 0, none, false, 0, 0⟩
def sess (roles : Nat) (s : State) : State := s.updEoa fun e => { e with sessions := e.sessions.set 0 (some (session roles true)) }
/-- The service is free for w, as `State.Idle` says. -/
def idle (s : State) (w : Who) : Bool :=
  s.alive && (match w with
    | .session k => (s.eoa.sessions[k]).any (·.opened)
    | _ => s.boxClean w && (s.dict.box w).any (fun m => !m.busy))
    && !s.dictBusy && s.dict.batch.isNone && s.dict.waiting.isEmpty && s.pwr.prep.isNone
theorem idle_is (s : State) (w : Who) (h : idle s w = true) : s.Idle w := by
  simp only [idle, Bool.and_eq_true, Bool.not_eq_true', Option.isNone_iff_eq_none, List.isEmpty_iff] at h
  exact ⟨h.1.1.1.1.1, h.1.1.1.1.2, h.1.1.1.2, h.1.1.2, h.1.2, h.2⟩
/-- The journal runs, with room. -/
def jr (s : State) : State := { s.updJnl (fun j => { j with state := .ready, s0State := .ready }) with cfg := { s.cfg with jnlDayLimit := 1000000000 } }
def mg : State := jr ring
def ss : State := sess 7 mg
def errorOf (i sub : Nat) : Option EStatus :=
  match Obj.resolve i sub with
  | .error e => some e
  | .ok _ => none
def isObj (i sub : Nat) (o : Obj) : Prop := (Obj.resolve i sub).toOption = some o

theorem witness_readsAndWrites : idle mg .mgr ∧ errorOf 0x9999 1 = some .noObject ∧ isObj 0x1C00 2 .coastAfter
    ∧ mg.readDenied .mgr .coastAfter = none ∧ Obj.isDomain .coastAfter = false ∧ (mg.valueOf .coastAfter).length ≤ roomOf .mgr
    ∧ isObj 0x1010 2 .lcRequest ∧ mg.readDenied .mgr .lcRequest = some .accessDenied
    ∧ isObj 0x1000 1 .ident ∧ mg.writeDenied .mgr .ident = some .readOnly
    ∧ isObj 0x1203 3 (.instDesc 3 .credits) ∧ mg.writeDenied .mgr (.instDesc 3 .credits) = none
    ∧ Obj.lengthOk (.instDesc 3 .credits) 2 = true ∧ descOk .credits [1#8, 0#8] = true ∧ descOk .weight [0#8, 0#8] = false
    ∧ idle (sess 7 mg) (.session 0) ∧ ss.writeDenied (.session 0) .coastAfter = none ∧ Obj.lengthOk .coastAfter 4 = true
    ∧ ss.persistRange .coastAfter (z 4) = true ∧ ss.mayCommit (commitRecs [(.coastAfter, z 4)] none) = true
    ∧ idle (sess 7 ring) (.session 0) ∧ (sess 7 ring).mayCommit (commitRecs [(.coastAfter, z 4)] none) = false := by
  unfold isObj; decide +kernel

/-- Session 0 has a transfer of RT_LOAD open. -/
def opened : State := ss.updDict fun d => { d with transfers := [⟨.session 0, .rtLoad, true, 40, z 8, 0⟩] }
theorem witness_transfers : idle ss (.session 0) ∧ isObj 0x1700 1 .rtLoad ∧ ss.writeDenied (.session 0) .rtLoad = none
    ∧ Obj.isDomain .rtLoad = true ∧ (z 8).length ≤ roomOf (.session 0) ∧ ss.openRefused (.session 0) .rtLoad 40 = none
    ∧ idle opened (.session 0) ∧ opened.transfer (.session 0) = some ⟨.session 0, .rtLoad, true, 40, z 8, 0⟩
    ∧ atOffset (.session 0) 8 (z 8).length = true ∧ (z 8).length + 32 ≤ 40 ∧ ss.transfer (.session 0) = none
    ∧ isObj 0x1110 14 .recoveryCert ∧ Obj.isDomain .recoveryCert = true ∧ ss.readDenied (.session 0) .recoveryCert = none
    ∧ atOffset (.session 0) 0 0 = true := by unfold isObj; decide +kernel

def st3 (x : IState) (s : State := ring) : State := on3 s fun i => { i with state := x }
def free3 : State := on3 up fun i => { i with staged := desc3 }
theorem witness_instanceLife : idle ring .mgr ∧ ring.writeDenied .mgr (.instCommand 3) = none
    ∧ (let i := free3.inst 3; idle free3 .mgr ∧ free3.writeDenied .mgr (.instCommand 3) = none ∧ i.state = .free ∧ i.staged.rangesOk = true
      ∧ (free3.sqRun i.staged.sqCount).isSome ∧ (free3.cqRun i.staged.cqCount).isSome
      ∧ (assignAll 3 i.staged.tcReserve free3.units).isSome ∧ free3.shortFor 3 i.staged = 0)
    ∧ (ring.inst 3).state = .active ∧ (ring.inst 3).destroying = false
    ∧ (idle (st3 .configured) .mgr ∧ ((st3 .configured).inst 3).state = .configured ∧ (3 : Fin 128) ≠ 0)
    ∧ (idle (st3 .failed) .mgr ∧ ((st3 .failed).inst 3).state = .failed)
    ∧ (ring.inst 3).staged.rangesOk = true ∧ ring.shareConflict 3 (ring.inst 3).live (ring.inst 3).staged = false
    ∧ ring.shortForShare 3 (ring.inst 3).live (ring.inst 3).staged = 0 ∧ (ring.inst 3).staged.tclass = (ring.inst 3).live.tclass
    ∧ (ring.inst 3).staged.tcReserve = (ring.inst 3).live.tcReserve
    ∧ ring.writeDenied (.inst 3) (.selfReset 3) = none ∧ idle ring (.inst 3)
    ∧ (let s := st3 .quiescing; (s.inst 3).state = .quiescing ∧ (s.inst 3).outstanding = 0 ∧ s.writesOut 3 = false ∧ (s.inst 3).logIdle = true)
    ∧ (let s := st3 .resetting; (s.inst 3).state = .resetting ∧ s.writesOut 3 = false ∧ (s.inst 3).logIdle = true
      ∧ ∀ j ∈ s.jobs, j.inst ≠ 3) := by decide +kernel

def sq5in (x : SqSt) : State := sq5 ring fun q => { q with state := x }
def cqOff (n : Nat) : State := cq2 ring fun c => { c with enabled := false, tail := BitVec.ofNat 32 n }
theorem witness_ringRequests : (let s := sq5in .disabled; idle s .mgr ∧ s.writeDenied .mgr (.sqEnable 5) = none ∧ (s.sq 5).owner = some 3
      ∧ (s.sq 5).state = .disabled ∧ s.noRings = false ∧ (s.inst 3).state.mayEnable = true ∧ s.cqOfSq 5 = some 2
      ∧ (s.cq 2).enabled = true ∧ (s.inst 3).isTc = false)
    ∧ (idle ring .mgr ∧ (ring.sq 5).state = .enabled)
    ∧ (let s := sq5in .draining; idle s .mgr ∧ s.writeDenied .mgr (.sqEnable 5) = none ∧ (s.sq 5).state = .draining ∧ s.noRings = false) := by decide +kernel
theorem witness_ringRequests_cq : (let s := cqOff 0; idle s .mgr ∧ s.writeDenied .mgr (.cqEnable 2) = none ∧ (s.cq 2).owner = some 3 ∧ (s.cq 2).enabled = false
      ∧ s.noRings = false ∧ (s.inst 3).state.mayEnable = true ∧ ((s.cq 2).tail - (s.cq 2).head).toNat ≤ (s.cq 2).size)
    ∧ (let s := cqOff 9000; idle s .mgr ∧ (s.cq 2).size < ((s.cq 2).tail - (s.cq 2).head).toNat)
    ∧ (let s := sq5in .disabled; (s.cq 2).owner = some 3 ∧ (s.cq 2).enabled = true
      ∧ (∀ h ∈ s.sqsOf 3, s.cqOfSq h = some 2 → (s.sq h).state = .disabled) ∧ (s.cq 2).reserved = 0 ∧ (s.cq 2).overflow = [])
    ∧ ((cq2 ring fun c => { c with overflow := [⟨z 32, true, 3, none⟩] }).cq 2).overflow ≠ [] := by decide +kernel

def vaulted (s : State) : State := s.updVault fun v =>
  { v with map := true, dus := some (List.replicate 32 9#8), roots := v.roots.set 2 (some (z 32)), lcSeen := 7, anchor := some (z 2049), pendRoots := v.pendRoots.set 0 (some (z 32)) }
/-- A request for target code c. -/
def lcTo (c : Nat) : Bytes := [BitVec.ofNat 8 c, 0#8, 0#8, 0#8] ++ toLe 4 0x5C4A9D21
def delivery : Bytes := [1#8, 1#8, 3#8] ++ z 5 ++ toLe 8 5 ++ z 4589
def restore : Bytes := [1#8, 4#8] ++ z 2135 ++ [7#8] ++ z 4729
def package : Bytes := [1#8, 2#8, 1#8, 1#8] ++ z 4 ++ toLe 8 5 ++ z 5470
def inLife (f : Lc) : State := life f (vaulted (jr up))
def fullS : State := sess 0xF (inLife .field)

/-- FIELD to SCRAP needs no token; PROVISION to FIELD needs a VRT pending; a move back is refused. -/
theorem witness_lifeRequests_lc : idle (inLife .field) .mgr ∧ (inLife .field).writeDenied .mgr .lcRequest = none
    ∧ (inLife .field).lcDenied .mgr (lcTo 0x1F) = false ∧ (lcTo 0x1F).length = 8 ∧ Lc.ofCode (byteAt (lcTo 0x1F) 0) = some .scrap
    ∧ allZero (slice (lcTo 0x1F) 1 3) = true ∧ le (lcTo 0x1F) 4 4 = 0x5C4A9D21 ∧ (inLife .field).quietInsts = true
    ∧ (inLife .field).life.debug = false ∧ (inLife .field).mayMove .scrap = true ∧ (inLife .field).lcTokens .scrap = true
    ∧ (inLife .provision).quietInsts = true ∧ (inLife .provision).mayMove .field = true ∧ (inLife .provision).lcTokens .field = true
    ∧ Lc.ofCode (byteAt (lcTo 7) 0) = some .field ∧ (inLife .field).mayMove .provision = false
    ∧ Lc.ofCode (byteAt (lcTo 3) 0) = some .provision := by decide +kernel
/-- BLANK to PROVISION: all but the token, which only Kwaxiva's key makes (log entry 7). -/
theorem witness_lifeRequests_token (h : (inLife .blank).lcTokens .provision = true) : idle (inLife .blank) .mgr = true
    ∧ (inLife .blank).quietInsts = true ∧ (inLife .blank).mayMove .provision = true ∧ (inLife .blank).lcTokens .provision = true :=
  ⟨by decide +kernel, by decide +kernel, by decide +kernel, h⟩
theorem witness_lifeRequests_debug : idle (inLife .provision) .mgr ∧ (inLife .provision).writeDenied .mgr .debugEnable = none
    ∧ (inLife .provision).life.debug = false ∧ (∀ n : Fin 128, n ≠ 0 → ((inLife .provision).inst n).state ≠ .active)
    ∧ idle (inLife .scrap) .mgr ∧ (inLife .scrap).writeDenied .mgr .debugEnable = none ∧ (inLife .scrap).life.debug = false := by decide +kernel
def measured : State := (inLife .field).updLife fun l => { l with hostMeasure := some (z 48) }
theorem witness_lifeRequests_measure : (inLife .field).writeDenied .mgr .hostMeasure = none ∧ (z 48).length = 48
    ∧ (inLife .field).life.hostMeasure = none ∧ idle measured .mgr ∧ measured.life.hostMeasure.isSome
    ∧ (inLife .field).writeDenied .mgr .recoveryAttest = none ∧ (inLife .field).openRefused .mgr .recoveryAttest 32 = none := by decide +kernel
theorem witness_lifeRequests_delivery : idle fullS (.session 0) ∧ fullS.writeDenied (.session 0) .rootDelivery = none
    ∧ fullS.openRefused (.session 0) .rootDelivery delivery.length = none ∧ le delivery 0 2 = 0x0101 ∧ 1 ≤ byteAt delivery 2
    ∧ byteAt delivery 2 ≤ 9 ∧ allZero (slice delivery 3 5) = true ∧ ((fullS.updVault fun v => { v with anchor := none }).openDelivery delivery).1 = none := by
  decide +kernel
theorem witness_lifeRequests_restore : fullS.writeDenied (.session 0) .anchorRestore = none
    ∧ fullS.openRefused (.session 0) .anchorRestore restore.length = none ∧ le restore 0 2 = 0x0401 ∧ byteAt restore 2137 = Lc.field.code
    ∧ allZero (slice restore 2 6) = true ∧ allZero (slice restore 2138 6) = true ∧ fullS.vault.anchor.isSome
    ∧ (fullS.updVault fun v => { v with anchor := none }).vault.anchor = none := by decide +kernel
theorem witness_lifeRequests_package : fullS.writeDenied (.session 0) .anchorPkg = none
    ∧ fullS.openRefused (.session 0) .anchorPkg package.length = none ∧ le package 0 2 = 0x0201 ∧ byteAt package 2 < 8
    ∧ byteAt package 3 < 8 ∧ allZero (slice package 4 4) = true ∧ fullS.life.fuse = .field
    ∧ fullS.mayCommit (commitRecs [(.anchorPkg, package)] none) = true := by decide +kernel

def load5 : Bytes := toLe 2 5 ++ toLe 2 0x11 ++ toLe 4 (handle 0x10) ++ [4#8, 0#8, 64#8, 64#8, 8#8] ++ z 3 ++ toLe 8 9 ++ toLe 4 5 ++ z 4
def rows (bad : Nat) : Bytes := toLe 2 7 ++ toLe 2 2 ++ z 4 ++ toLe 8 0x10000 ++ toLe 8 (0x28070007 + bad) ++ z 48
def wakeOf (c : Nat) : Bytes := [BitVec.ofNat 8 c] ++ z 31
def upd : Bytes := toLe 4 5000 ++ toLe 4 1024 ++ z 40
def svc : State :=
  let s := on3 (withSlot (vaulted mg) 0x10 (slotOf 0x31 6 16)) fun i => { i with live := { i.live with edgeQuota := 8 } }
  { s with cfg := { s.cfg with chanOwner := s.cfg.chanOwner.set 4 (some 3) }, card := { s.card with state := .ready } }
def svcS : State := sess 7 svc
def moving : State :=
  let s := on3 svc fun i => { i with state := .configured, quiesced := true }
  { s with cas := { s.cas with role := .lead, trained := s.cas.trained.set 0 true, peers := s.cas.peers.set 1 { s.cas.peers[1] with status := 2, key := some (z 32) } } }

theorem witness_serviceRequests_edge : idle svc (.inst 3) ∧ loadOk load5 = true ∧ svc.cfg.chanOwner.toList.getD (byteAt load5 8) none = some 3
    ∧ (svc.handleSlot 3 (le load5 4 4)).toOption = some (0x10, slotOf 0x31 6 16) ∧ (slotOf 0x31 6 16).key.length = 16
    ∧ svc.loadConflict 3 load5 = false ∧ idle svc .mgr ∧ ofLe [5#8, 0#8] < 512 := by decide +kernel
theorem witness_serviceRequests_journal : svc.writeDenied .mgr .jnlCompact = none ∧ svc.jnl.state = .ready
    ∧ idle svcS (.session 0) ∧ svcS.writeDenied (.session 0) .updAbandon = none
    ∧ (svcS.updJnl fun j => { j with updState := .receiving }).jnl.updState ≠ .idle
    ∧ (svcS.updJnl fun j => { j with updState := .receiving }).mayCommit (commitRecs [(.updState, [0#8])] none) = true
    ∧ svcS.writeDenied (.session 0) .updSegment = none
    ∧ (let j := (svcS.updJnl fun j => { j with updLen := 5000, updSeg := 1024 }).jnl; (z 5).length ≤ roomOf (.session 0) ∧ allZero (slice (z 5) 4 4) = true
      ∧ le (z 5) 0 4 < j.segCount ∧ j.updOpen = none ∧ j.state = .ready) := by decide +kernel
theorem witness_serviceRequests_wake : svcS.writeDenied (.session 0) (.wakeKey 1) = none ∧ (wakeOf 3).length = 32 ∧ byteAt (wakeOf 3) 0 ≤ 9
    ∧ allZero (slice (wakeOf 3) 1 3) = true ∧ (svcS.rootKey (byteAt (wakeOf 3) 0)).isSome ∧ byteAt (wakeOf 0xFF) 0 = 0xFF
    ∧ allZero ((wakeOf 0xFF).drop 1) = true := by decide +kernel
def inject0 : Bytes := [1#8, 0#8] ++ toLe 2 0 ++ z 4
def inject6 : Bytes := [6#8, 0#8] ++ toLe 2 2 ++ z 4
theorem witness_serviceRequests_inject : svc.writeDenied .mgr .faultInject = none ∧ inject0.length = 8 ∧ byteAt inject0 1 = 0
    ∧ allZero (slice inject0 4 4) = true ∧ (injectEngine (byteAt inject0 0) (le inject0 2 2)).isSome ∧ svc.life.debug = false
    ∧ (svc.updLife fun l => { l with debug := true }).life.debug = true
    ∧ (inject6.length = 8 ∧ byteAt inject6 0 = 6 ∧ le inject6 2 2 < 384 ∧ allZero (slice inject6 4 4) = true ∧ fifoShown (le inject6 2 2) = true)
    ∧ fifoShown (le ([6#8, 0#8] ++ toLe 2 200 ++ z 4 : Bytes) 2 2) = false ∧ svc.writeDenied .mgr .sessionClose = none := by decide +kernel
theorem witness_serviceRequests_table : svc.writeDenied .mgr .rtLoad = none ∧ svc.openRefused .mgr .rtLoad (rows 0).length = none
    ∧ (rows 0).length = 8 + 32 * le (rows 0) 2 2 ∧ 1 ≤ le (rows 0) 2 2 ∧ le (rows 0) 0 2 + le (rows 0) 2 2 ≤ 1024
    ∧ allZero (slice (rows 0) 4 4) = true ∧ (∀ i < 2, loadEntryOk (rows 0) i = true) ∧ loadEntryOk (rows 8) 0 = false := by decide +kernel
theorem witness_serviceRequests_append : svcS.writeDenied (.session 0) .recAppend = none ∧ svcS.openRefused (.session 0) .recAppend 5 = none
    ∧ svcS.vault.cardCounters[svcS.cfg.recCounter].toNat ≠ allOnes64 ∧ svcS.card.state = .ready ∧ svcS.cardKey.isSome := by decide +kernel
theorem witness_serviceRequests_commit : svcS.writeDenied (.session 0) .s1Enable = none ∧ Obj.lengthOk .s1Enable 1 = true
    ∧ svcS.persistRange .s1Enable [1#8] = true ∧ svcS.persistState .s1Enable [1#8] = true
    ∧ svcS.mayCommit (commitRecs [(.s1Enable, [1#8])] none) = true
    ∧ svcS.writeDenied (.session 0) .updBegin = none ∧ Obj.lengthOk .updBegin upd.length = true ∧ svcS.persistRange .updBegin upd = true
    ∧ svcS.persistState .updBegin upd = true ∧ svcS.jnl.sameUpdate upd = false
    ∧ svcS.mayCommit (commitRecs [(.updBegin, upd)] none) = true := by decide +kernel
theorem witness_serviceRequests_rest : svc.writeDenied .mgr .tmpClear = none ∧ svc.pins.tmpLevel &&& 1#8 = 0#8
    ∧ (svc.updPins fun p => { p with tmpLevel := 1#8 }).pins.tmpLevel &&& 1#8 ≠ 0#8
    ∧ idle moving .mgr ∧ moving.writeDenied .mgr (.pelMove 3) = none ∧ (moving.inst 3).state = .configured
    ∧ (moving.inst 3).quiesced = true ∧ moving.reaches 1 = true ∧ (moving.inst 3).pelPeer = none := by decide +kernel

/-! ### EOA -/

/-- A client's MAC, without a VLAN tag. -/
def via1 : Via := .eth (z 5 ++ [3#8]) []
/-- EOA is enabled with a certificate and an anchor in cell 0; binding 1 is on. -/
def eoaS : State :=
  let s := jr up
  let s := s.updCfg fun c =>
    { c with edgeEnable := true, eoaEnable := true, blockCert := z 100, eoaEtherType := 0x88B5, eoaMac := z 5 ++ [2#8], sessionsMax := 2, anchors := c.anchors.set 0 (some ⟨0xF, 1, z 97, z 1952⟩), canBinds := c.canBinds.set 1 ([5#8] ++ z 11 ++ [2#8, 3#8, 0xCC#8, 0#8]) }
  s.updVault fun v => { v with map := true, dus := some (List.replicate 32 9#8), lcSeen := 7 }
/-- PDU p in a frame of port 68 for the block's MAC. -/
def pduIn (p : Bytes) : EoaIn :=
  let f := z 5 ++ [2#8] ++ z 5 ++ [3#8] ++ [0x88#8, 0xB5#8] ++ p
  ⟨eoaBeat 1 68 f.length 0 ++ f⟩
/-- A HELLO for an anchor that is not there. -/
def helloFrags : List Bytes := handshake 1 0 (z 1254 ++ [5#8] ++ z 5491)
def frag (l : List Bytes) (k : Nat) : Bytes := l.getD k []
def opening : Session := Session.opening 7 via1 68 0
/-- The opening with the first k fragments. -/
def withFrags (l : List Bytes) (k : Nat) (x : Session) : Session := (l.take k).foldl (fun x p => x.addFrag p 5) x
def finFrags : List Bytes := handshake 3 7 (z 3405)
def replied : Session := { opening with hello := z 64, reply := z 50, secret := z 32, clientEc := z 97, clientPq := z 1952, roles := 3 }
def openX : Session := { opening with opened := true, kIn := List.replicate 32 3#8, kOut := List.replicate 32 4#8, ivIn := z 12, ivOut := z 12, roles := 3, lastSeq := 1 }
/-- What the client of openX sends. -/
def fromClient (type q : Nat) (body : Bytes) : Bytes := { openX with kOut := openX.kIn, ivOut := openX.ivIn }.protect type q body
def readReq : Bytes := [1#8, 0#8, 0#8, 0#8] ++ [1#8, 2#8] ++ toLe 2 0x1C00 ++ z 8
def withSess (x : Session) : State := eoaS.updEoa fun e => { e with sessions := e.sessions.set 0 (some x) }
/-- All that EoaMessages asks before its clauses. -/
def arrives (s : State) (p : Bytes) : Prop := s.oflRxReady = true ∧ s.flt.fifo = [] ∧ s.pduOf (pduIn p) = some (via1, p) ∧ pduOk p = true ∧ pduLen p = p.length
    ∧ (pduIn p).port = 68
/-- Openings of the client of a HELLO that have no message yet. -/
def fresh1 (y : Session) : Bool := !y.opened && y.via == via1 && y.port == 68 && y.hello.isEmpty
theorem witness_eoaMessages_first : let p := frag helloFrags 0; arrives eoaS p ∧ pduType p = 1 ∧ eoaS.findSession fresh1 = none
    ∧ eoaS.pwr.prep = none ∧ eoaS.eoa.hellos.length < 16 ∧ eoaS.openingRefused = none
    ∧ ((List.finRange 8).find? fun j => (eoaS.eoa.sessions[j] : Option Session).isNone) = some 0 ∧ 1 < fragCount p
    ∧ (Session.opening eoaS.eoa.nextNum via1 68 eoaS.now).fragOk p 6746 = true := by unfold arrives; decide +kernel
theorem witness_eoaMessages_flood : let s := eoaS.updEoa fun e => { e with hellos := List.replicate 16 0 };
    s.findSession fresh1 = none ∧ 16 ≤ (s.eoa.hellos.filter fun c => decide (s.now < c + 60 * 10 ^ 9)).length := by decide +kernel
theorem message_length (x : Session) (h : x.frags.length = x.nfrag) :
    x.message.map (·.length) = some (((List.range x.nfrag).map fun i => ((x.frags.lookup i).getD []).length).sum) := by
  simp [Session.message, h, Function.comp_def]
theorem witness_eoaMessages_hello : let p := frag helloFrags 4; let x := withFrags helloFrags 4 opening; let s := withSess x;
    arrives s p ∧ pduType p = 1 ∧ s.findSession fresh1 = some (0, x) ∧ x.fragOk p 6746 = true
    ∧ ((x.addFrag p s.now).message.map fun m =>
      (((((s.exchange 0 (.pdu (pduIn p).raw)).setSession 0 (some (x.addFrag p s.now))).count 0x201A 1).engineWork).exchange 0
        (.tbTime s.pins.tbTime)).helloRefused m) = some (some .authFail) := by
  unfold arrives; decide +kernel
theorem witness_eoaMessages_whole :
    ((withFrags helloFrags 4 opening).addFrag (frag helloFrags 4) 0).message.map (·.length) = some 6746 := by
  rw [message_length _ (by decide +kernel)]
  decide +kernel
theorem witness_eoaMessages_last : ((withFrags finFrags 2 replied).addFrag (frag finFrags 2) 0).message.map (·.length) = some 3405 := by
  rw [message_length _ (by decide +kernel)]
  decide +kernel
/-- The message whose signatures the FINISH clause asks for; that a HELLO or a FINISH is rightly signed rests on the
client's keys. -/
theorem witness_eoaMessages_finish : let p := frag finFrags 2; let x := withFrags finFrags 2 replied; let s := withSess x;
    arrives s p ∧ pduType p = 3 ∧ x.fragOk p 3405 = true ∧ s.openCount < s.cfg.sessionsMax
    ∧ s.findSession (fun y => !y.opened && y.number == pduSession p && !y.hello.isEmpty && y.via == via1 && y.port == 68) = some (0, x) := by
  unfold arrives; decide +kernel
/-- A fragment that belongs to no HELLO under way, and one of another count; the table of sessions is full. -/
theorem witness_eoaMessages_stray : (let p := frag helloFrags 1; arrives eoaS p ∧ pduType p = 1 ∧ eoaS.findSession fresh1 = none ∧ fragNo p ≠ 0)
    ∧ (let p := frag (handshake 1 0 (z 3000)) 1; let x := withFrags helloFrags 1 opening; arrives (withSess x) p ∧ pduType p = 1
      ∧ (withSess x).findSession fresh1 = some (0, x) ∧ x.fragOk p 6746 = false)
    ∧ (let s := (withSess replied).updCfg fun c => { c with sessionsMax := 0 }; s.cfg.sessionsMax ≤ s.openCount) := by
  unfold arrives; decide +kernel
/-- SEQ would pass 2^32 - 1. -/
theorem witness_eoaMessages_seq : let x := { openX with lastSeq := 2 ^ 32 - 1 }; let p := fromClient 0x1F (2 ^ 32) [];
    arrives (withSess x) p ∧ pduType p = 0x1F ∧ pduSeq p = x.lastSeq + 1 ∧ x.inProcess = false ∧ 2 ^ 32 ≤ pduSeq p
      ∧ (x.unprotect p).isSome := by unfold arrives; decide +kernel
def bySession (p : Bytes) (y : Session) : Bool := y.opened && y.number == pduSession p
theorem witness_eoaMessages_dropped : let p := (fromClient 0x1F 2 []).take 31 ++ [0xAA#8]; arrives (withSess openX) p ∧ pduType p = 0x1F
    ∧ (withSess openX).findSession (bySession p) = some (0, openX) ∧ pduType (fromClient 0x10 2 readReq) = 0x10 := by
  unfold arrives; decide +kernel
theorem witness_eoaMessages_close : let p := fromClient 0x1F 2 []; arrives (withSess openX) p ∧ openX.unprotect p = some []
    ∧ pduSeq p = openX.lastSeq + 1 ∧ openX.inProcess = false := by unfold arrives; decide +kernel
theorem witness_eoaMessages_request : let p := fromClient 0x10 2 readReq; arrives (withSess openX) p ∧ openX.unprotect p = some readReq
    ∧ pduSeq p = openX.lastSeq + 1 ∧ (withSess openX).dictBusy = false ∧ (withSess openX).dict.batch = none
    ∧ (withSess openX).dict.waiting = [] ∧ (withSess openX).pwr.prep = none
    ∧ (parseBatch 0 7 2 readReq).toOption = some ⟨0, 7, 2, 1, false, [⟨0x1C00, 2, false, .read .coastAfter⟩], [], none⟩
    ∧ (withSess openX).readDenied (.session 0) .coastAfter = none := by unfold arrives; decide +kernel
theorem witness_eoaMessages_again : let p := fromClient 0x10 1 readReq; arrives (withSess { openX with stored := some (z 20) }) p
    ∧ pduSeq p = openX.lastSeq ∧ (withSess { openX with stored := some (z 20) }).findSession (bySession p) = some (0, { openX with stored := some (z 20) }) := by
  unfold arrives; decide +kernel

theorem witness_eoaTimers : (openX.opened = true ∧ openX.drops < 16 ∧ 16 ≤ ({ openX with drops := 16 } : Session).drops)
    ∧ (withSess openX).eoa.sessions[0] = some openX ∧ opening.opened = false ∧ eoaS.eoa.sessions[0] = none ∧ eoaS.alive = true := by decide +kernel
def iso (x : IsoTp) : State := eoaS.updEoa fun e => { e with tp := e.tp.set 1 x }
def idleTp : IsoTp := ⟨0, none, 0, 0, none, 0, []⟩
theorem witness_eoaTimers_tp : (iso { idleTp with rx := some (z 4) }).eoa.tp[1].rx ≠ none ∧ idleTp.rx = none ∧ idleTp.queue = []
    ∧ (iso { idleTp with queue := [z 100] }).eoa.tp[1].queue = [z 100] ∧ 62 < (z 100).length ∧ (z 60).length = 60 ∧ (iso idleTp).alive = true ∧ State.reset.alive = false
    ∧ (iso idleTp).flt.fifo = [] := by decide +kernel
/-- A CAN FD frame of CHAN 5 under binding 1's REQ_ID. -/
def canIn (d : Bytes) : EoaIn := ⟨eoaBeat 2 5 d.length 0 ++ d⟩
/-- All that CanFrames asks before its clauses, of a frame of kind k. -/
def canGets (s : State) (d : Bytes) (k : Nat) : Bool := s.oflRxReady && s.flt.fifo.isEmpty && s.bindingOf (canIn d) == some 1
  && (canIn d).frame == d && byteAt d 0 / 16 == k
def reasm : IsoTp := { idleTp with rx := some (z 62), rxTotal := 640, rxSn := 17, rxBlock := 1 }
theorem witness_canFrames : (let d := toBe 2 0x1040 ++ z 62; canGets eoaS d 1 ∧ 1 ≤ ofBe (d.take 2) % 4096
      ∧ ofBe (d.take 2) % 4096 ≤ 1500 ∧ d.length - 2 < ofBe (d.take 2) % 4096)
    ∧ (let d := toBe 2 0x15DD ++ z 62; canGets eoaS d 1 ∧ 1500 < ofBe (d.take 2) % 4096)
    ∧ (let d := [0x21#8] ++ z 63; canGets (iso reasm) d 2 ∧ (iso reasm).eoa.tp[1] = reasm ∧ byteAt d 0 % 16 = reasm.rxSn % 16
      ∧ (z 62 ++ d.drop 1).length < reasm.rxTotal ∧ reasm.rxBlock = 1 ∧ ({ reasm with rxBlock := 2 } : IsoTp).rxBlock ≠ 1)
    ∧ (canGets (iso reasm) ([0x22#8] ++ z 63) 2 ∧ byteAt ([0x22#8] ++ z 63) 0 % 16 ≠ reasm.rxSn % 16)
    ∧ (64 ≤ (z 62 ++ ([0x21#8] ++ z 3).drop 1).length ∧ pduOk ((z 62 ++ ([0x21#8] ++ z 3).drop 1).take 64) = false)
    ∧ (canGets (iso { idleTp with tx := some (z 10) }) [0x30#8, 0#8, 0#8] 3 ∧ (z 10).length ≤ 63 ∧ idleTp.queue = [])
    ∧ (canGets (iso { idleTp with tx := some (z 150) }) [0x30#8, 1#8, 0#8] 3 ∧ byteAt [0x30#8, 1#8, 0#8] 1 = 1 ∧ 63 < (z 150).length)
    ∧ (canGets eoaS [0x31#8, 0#8, 0#8] 3 ∧ eoaS.eoa.tp[1].tx = none ∧ eoaS.eoa.tp[1].rx = none)
    ∧ (canGets eoaS [0x32#8, 0#8, 0#8] 3 ∧ 2 ≤ byteAt [0x32#8, 0#8, 0#8] 0 % 16) := by decide +kernel

def tandem (k : Fin 2) (x : Tandem) (s : State := eoaS) : State := { s with flt := { s.flt with tandems := s.flt.tandems.set k x } }
theorem witness_tandems : (eoaS.alive = true ∧ eoaS.flt.tandems[0].inService = true ∧ eoaS.flt.tandems[1].inService = true
      ∧ eoaS.flt.tandems[0].sinceCkpt = false ∧ eoaS.restartsReach 0 = false)
    ∧ (let s := eoaS.updEoa fun e => { e with held := [⟨via1, 4, z 70⟩] }; s.flt.fifo = [] ∧ ∀ o ∈ s.eoa.held, o.via = via1)
    ∧ (let s := tandem 0 ⟨true, [], true, []⟩; s.alive = true ∧ s.flt.tandems[0].sinceCkpt = true)
    ∧ (let s := tandem 0 ⟨true, List.replicate 8 0, false, []⟩; s.restartsReach 0 = true)
    ∧ (let s := tandem 1 ⟨false, [], true, []⟩; s.alive = true ∧ s.flt.tandems[0].inService = true ∧ s.flt.tandems[1].inService = false) := by
  decide +kernel

/-! ### Wake-up, journal, cards, start-up -/

/-- A frame of counter value n under sentry key 0 of wakeKeyed. -/
def goodWake (n : Nat) : Bytes := let b := [1#8, 0#8] ++ toBe 8 n; b ++ (cmac (z 16) b).take 8
theorem witness_wakeFrames_valid : wakeKeyed.pwr.state = .freewheel ∧ wakeKeyed.sentry.backoff = none ∧ (goodWake 1).length < 65
    ∧ wakeKeyed.wakeOk (goodWake 1) = true := by decide +kernel

def journal (f : Jnl → Jnl) : State := (vaulted (jr up)).updJnl f
def event1 : Event := ⟨1, 3, 0, 0, 0, false, 1, z 8⟩
def coast60 : List (Obj × Bytes) := [(.coastAfter, toLe 2 60)]
/-- The manager's write of COAST_AFTER is on its way to the journal. -/
def committing : State :=
  let s := journal id
  (s.updDict fun d => { d with commit := some ⟨some .mgr, coast60, none, none, 0, true⟩, mgrBox := { d.mgrBox with busy := true } }).updJnl fun j =>
    { j with inFlight := some (s.nextGroup (commitRecs coast60 none) false), sent := true }
/-- A group of the block's own with these records is in flight. -/
def ownIn (l : List JRec) (snap : Bool) : State :=
  let s := journal id
  s.updJnl fun j => { j with inFlight := some (s.nextGroup l snap), sent := true }
theorem witness_journalSteps : (let s := committing;
      s.tandemsRun = true ∧ s.dict.commit = some ⟨some .mgr, coast60, none, none, 0, true⟩ ∧ s.jnl.inFlight.isSome ∧ s.jnl.sent = true
      ∧ s.dict.waiting = [] ∧ s.dict.batch = none ∧ s.jnl.heldEvents = [] ∧ s.jnl.half0Due = false ∧ s.jnl.half1Due = false
      ∧ s.jnl.heldRecs = [] ∧ s.jnl.snapAsked = false)
    ∧ (committing.updJnl fun j => { j with sent := false }).jnl.sent = false
    ∧ (let c : Commit := ⟨some .mgr, coast60, none, none, 0, false⟩; let s := (journal id).updDict fun d => { d with commit := some c }
      s.dict.commit = some c ∧ c.started = false ∧ s.jnl.inFlight = none ∧ s.jnl.s0Waits = false
      ∧ s.mayCommit (commitRecs c.writes c.segment) = true)
    ∧ (let s := journal fun j => { j with heldEvents := [event1, event1] }; s.dict.commit = none ∧ s.eventsReady = true ∧ s.tandemsRun = true)
    ∧ (∀ b, (ownIn [.event event1] b).dict.commit = none ∧ (ownIn [.event event1] b).jnl.sent = true
      ∧ ((ownIn [.event event1] b).jnl.inFlight.map (·.snapshot)) = some b)
    ∧ (let s := journal id; s.tandemsRun = true ∧ s.dict.commit = none ∧ s.jnl.inFlight = none ∧ s.eventsReady = false ∧ s.snapDue = false
      ∧ 0 < s.cfg.jnlDayLimit ∧ s.jnl.heldEvents = [] ∧ s.windowOver = false)
    ∧ (let s := { journal (fun j => { j with winOpen := true, winElapsed := 86400 * 10 ^ 9 }) with now := 5 }; s.windowOver = true)
    ∧ (let s := journal fun j => { j with snapAsked := true };
      s.jnlFree = true ∧ s.snapDue = true ∧ s.exemptFits (recBytes s.snapRecs) = true) := by decide +kernel

def carded (f : Card → Card) : State :=
  let s := vaulted (jr up)
  { s with cfg := { s.cfg with s1Enable := true, s1Modes := 31, crcRetries := 3 }, card := f s.card }
/-- A card is in the slot. -/
def inSlot (s : State) : State := s.updPins fun p => { p with s1CdHigh := false, s1Pwr := true, s1Clk := true }
def cardIn (places : List (Nat × Bytes)) (ok : Bool) : CardIn := ⟨true, 1, true, true, true, ok, false, true, 5, z 16, 3, places⟩
def appendIn (p : AppPhase) (sent : Bool) : Append := ⟨0, 6, z 96, [7#8], p, 0, false, sent⟩
def appending (p : AppPhase) (sent : Bool := true) : State :=
  (inSlot (carded fun d => { d with state := .ready, mode := 1, append := some (appendIn p sent) })).updDict fun d =>
    { d with appendBy := some .mgr, mgrBox := { d.mgrBox with busy := true } }
/-- The card of `inSlot` is to be initialised as c says; slot 0 is. -/
def initing (c : CardIn) : State := inSlot (carded fun d => { d with state := .init, init := some c, permitted := 31 })
def slot0 (x : S0In) (cycle : Bool) : State := journal fun j => { j with s0State := .init, s0Init := some x, s0Cycle := cycle }
/-- A write of RPMB, or of a segment, is under way on slot 0. -/
def writing (w : S0Write) : State := (appending .data).updJnl fun j => { j with s0Busy := some w }
def s0Dead : S0In := { bootIn.s0 with ocr := false }
theorem witness_cardSlot : (let s := inSlot (carded fun d => { d with state := .ready, mode := 1 });
      s.dict.batch = none ∧ s.dict.waiting = [] ∧ s.flt.fifo = [] ∧ s.pins.s1CdHigh = false ∧ s.portAnswers = true)
    ∧ (carded id).pins.s1CdHigh = true
    ∧ (carded fun d => { d with state := .powerOff }).card.state = .powerOff
    ∧ (let s := carded fun d => { d with state := .empty }; s.portAnswers = true ∧ s.card.state = .empty ∧ s.cfg.s1Enable = true)
    ∧ (let s := inSlot (carded fun d => { d with state := .debounce });
      s.portAnswers = true ∧ s.card.state = .debounce ∧ s.pins.s1CdHigh = false ∧ s.pwr.prep = none)
    ∧ (∀ ok, let s := initing (cardIn [] ok); s.pending = [] ∧ s.card.init = some (cardIn [] ok) ∧ s.pwr.starting = none ∧ s.jnl.s0Init = none
      ∧ s.jnl.headDue = none ∧ noWaits s = true ∧ s.pins.pmDownReq = false
      ∧ s.pwr.state = .run ∧ (s.initMode (cardIn [] ok)).isSome = ok ∧ s.recordsOf [] 0 = []
      ∧ (s.chooseMode (cardIn [] ok).modes).isSome ∧ s.card.initTries < s.cfg.crcRetries ∧ s.card.append = none)
    ∧ (∀ p sent, (appending p sent).card.append = some (appendIn p sent)) ∧ 0 < (appending .data).cfg.crcRetries
    ∧ (appending .data).dict.appendBy = some .mgr ∧ (z 100).take (z 96).length = z 96
    ∧ ((appending .busy).updPwr fun p => { p with prep := some ⟨true, false, false, []⟩ }).pwr.prep ≠ none
    ∧ (appending .data).jnl.s0State = .ready ∧ (appending .data).jnl.s0Tries < 3 ∧ (appending .data).dict.commit = none
    ∧ (appending .data).jnl.writing = false ∧ (appending .data).jnl.rpmbOpen = false ∧ up.jnl.s0State ≠ .ready
    ∧ ((writing (.half0 [])).jnl.rpmbOpen = true ∧ (writing (.half0 [])).jnl.writing = true)
    ∧ ((writing (.segment 0 [])).jnl.rpmbOpen = false ∧ (writing (.segment 0 [])).jnl.writing = true)
    ∧ (let s := (appending .data).updJnl fun j => { j with s0Tries := 3 }; s.cfg.crcRetries ≤ s.jnl.s0Tries ∧ s.jnl.s0Stage = 0)
    ∧ (let s := (appending .data).updJnl fun j => { j with s0Tries := 3, s0Stage := 1 };
      s.jnl.s0State = .ready ∧ s.cfg.crcRetries ≤ s.jnl.s0Tries ∧ s.jnl.s0Stage = 1) := by
  refine ⟨by decide +kernel, by decide, by decide, by decide, by decide +kernel, ?_, ?_, by decide +kernel⟩
  · intro ok; cases ok <;> decide +kernel
  · intro p sent; rfl
theorem witness_cardSlot_slot0 : ∀ x ∈ [bootIn.s0, s0Dead], ∀ c, let s := slot0 x c; s.pending = [] ∧ s.jnl.s0Init = some x ∧ s.jnl.s0Cycle = c
    ∧ s.pwr.starting = none ∧ s.jnl.headDue = none ∧ noWaits s = true ∧ s.pins.pmDownReq = false ∧ s.card.init = none
    ∧ s.dict.commit = none := by decide +kernel
theorem witness_cardSlot_ok : bootIn.s0.ok = true ∧ s0Dead.ok = false := by decide
/-- A valid record of a value that the counter allows is found; that one is valid rests on the fingerprint (log entry 7). -/
theorem witness_cardSlot_record (s : State) (b : Bytes) (h : s.validRecord 0 b = true) (hn : le b 8 8 = s.vault.cardCounters[0].toNat) :
    s.recordsOf [(0, b)] 0 = [b] := by
  have e : s.validRecord 0 [] = false := by
    unfold State.validRecord
    cases s.cardKey
    · rfl
    · simp
  have f : placeOf [(0, b)] 1 = [] := rfl
  have g : placeOf [(0, b)] 0 = b := rfl
  simp only [State.recordsOf]
  simp [f, g, h, e, hn]

def asserted (f : Pwr → Pwr) : State :=
  { State.reset with vault := { (vaulted State.reset).vault with lcSeen := 7 }, life := { Life.reset with fuses := 7, fuse := .field }, pwr := f Pwr.reset }
/-- The block starts up from this state, with phase n next. -/
def booting (b : BootIn) (kept : Option Retained) (n : BootStep) : State :=
  asserted fun p => { p with dieReset := false, starting := some (b, kept), bootStep := n }
/-- SHA-384 of nothing (FIPS 180-4). -/
def sha384Nil : Bytes := toBe 48 0x38b060a751ac96384cd9327eb1b1e36a21fdb71114be07434c0cc7bf63f6e1da274edebfe76f65fbd51ad2f14898b95b
theorem test_sha384 : digest 0x32 48 [] = sha384Nil := by decide +kernel
/-- A retained section 0 with its manifest. -/
def retained : Retained := ⟨z 144 ++ sha384Nil, [], digest 0x32 48 (z 144 ++ sha384Nil), 2, 0, 0⟩
theorem witness_startUp_intact : retained.intact = true := by
  have h : slice (z 144 ++ sha384Nil) 144 48 = sha384Nil := by decide +kernel
  simp [Retained.intact, retained, test_sha384, h]
theorem witness_startUp_not : ({ retained with manifest := z 192 } : Retained).intact = false := by
  have h : slice (z 192) 144 48 ≠ sha384Nil := by decide +kernel
  simp [Retained.intact, retained, test_sha384, h.symm]
/-- After an awake start, slot 0 in this state. -/
def headed (x : S0St) : State := (vaulted (jr up)).updJnl fun j =>
  { j with s0State := x, headDue := some 1, state := .recovering
           groups := [(vaulted (jr up)).nextGroup [.event event1] false] }
theorem witness_startUp : up.pwr.dieReset = false ∧ (asserted id).pwr.dieReset = true ∧ (asserted id).pwr.state ≠ .off
    ∧ (∀ n : BootStep, let s := booting bootIn none n; s.pending = [] ∧ s.pwr.starting = some (bootIn, none) ∧ s.pwr.boot = .held
      ∧ s.pwr.bootStep = n ∧ s.pwr.state = .run ∧ s.pwr.dieReset = false ∧ s.jnl.s0Init = none ∧ s.card.init = none ∧ s.jnl.headDue = none
      ∧ s.pins.pmDownReq = false ∧ s.pins.tbValid = false)
    ∧ (let s := booting bootIn none .first; noWaits s = true ∧ s.life.fuse = s.life.read.fuse ∧ s.life.fuse ≠ .blank
      ∧ s.life.fuse ≠ .scrap ∧ s.vault.map = true ∧ s.vault.lcSeen = s.life.fuse.code ∧ s.slot0Wakes bootIn.s0 = false)
    ∧ (bootIn.tandemA = true ∧ bootIn.source0 = true ∧ bootIn.source1 = true ∧ bootIn.copyCut = false ∧ bootIn.s0.awake = false)
    ∧ (let b := { bootIn with tandemA := false, tandemB := false }; (booting b none .first).pwr.starting = some (b, none))
    ∧ (let b := { bootIn with s0 := { bootIn.s0 with awake := true } }
      let s := (booting b none .first).updJnl fun j => { j with s0Slept := true }
      s.jnl.s0Slept = true ∧ s.slot0Wakes b.s0 = true)
    ∧ ((booting bootIn none .load).jnl.s0State ≠ .failed ∧ ((booting bootIn none .load).updJnl fun j => { j with s0State := .failed }).jnl.s0State = .failed)
    ∧ (let s := (vaulted up).updPwr fun p => { p with resident := false }; s.alive = true ∧ s.pwr.resident = false
      ∧ s.sentry.late = [] ∧ (laterSecs s.jnl.images[0].bytes).all (secDigestOk s.jnl.images[0].bytes) = true) := by
  refine ⟨by decide, by decide, by decide, fun n => ?_, by decide +kernel⟩
  cases n <;> decide
theorem witness_startUp_head : (∀ x ∈ [S0St.ready, .failed], let s := headed x; s.pending = [] ∧ s.pwr.starting = none ∧ s.alive = true ∧ s.pwr.state = .run ∧ noWaits s = true
      ∧ s.pins.pmDownReq = false ∧ s.jnl.headDue = some 1 ∧ s.jnl.s0State = x) := by
  decide +kernel
/-- The head page of one group verifies, and stands at the retained position. -/
theorem witness_startUp_retained : ((headed .ready).updVault fun v => { v with journalAnchor := 1 }).retainedOk 1 = true := by
  let g : Group := (vaulted (jr up)).nextGroup [.event event1] false
  have h : g.first = 1 ∧ g.last = 1 := by decide
  have hp : ∀ k ∈ [1, 2], ((roundKeys (journalKey g.root k)).getLastD []).length = 16 := by decide +kernel
  have hv := g.page_valid 1 (hp 1 (by simp)) (hp 2 (by simp))
  have hr : ((headed .ready).updVault fun v => { v with journalAnchor := 1 }).readable g = true := by
    have hq : ((headed .ready).updVault fun v => { v with journalAnchor := 1 }).jnlRoot = g.root := rfl
    simpa [State.readable, h.1, h.2, hq] using hv
  have hl : ((headed .ready).updVault fun v => { v with journalAnchor := 1 }).jnl.groups = [g] := rfl
  rw [State.retainedOk, hl, List.filter_cons_of_pos hr]
  decide +kernel

/-! ### The peloton -/

def key32 : Bytes := List.replicate 32 8#8
def cascaded (r : Role) (f : Cas → Cas) : State :=
  let s := jr up
  { s with cas := f { s.cas with role := r, member := 0, prints := .replicate 4 (List.replicate 16 1#8), trained := .replicate 2 true }, pins := { s.pins with casBypass := false }
           cfg := { s.cfg with fwdAccept := true, fwdEngines := 2, fwdEnable := true } }
def peer (st sent got step : Nat) : Peer := { Peer.reset with status := st, key := if st == 2 then some key32 else none, sent := sent, got := got, step := step, free := 1 }
def peers (l : List (Fin 4 × Peer)) (c : Cas) : Cas := l.foldl (fun c x => { c with peers := c.peers.set x.1 x.2 }) c
/-- Members 1 and 2 are enrolled. -/
def two (c : Cas) : Cas := peers [(1, peer 2 5 6 0), (2, peer 2 2 7 0)] c
def lead : State := cascaded .lead two
def follower : State := cascaded .follower fun c => { two c with leader := some 1 }
/-- A frame from member 1 with counter n and this body, as its sender seals it. -/
def headOf (b : CasBody) (n : Nat := 7) : CasHead :=
  let w := sealFrame key32 b.code 1 0 n b.plain
  ⟨true, BitVec.ofNat 8 b.code, 1, 0, n, w, crc32 (frameBytes b.code 1 0 n w)⟩
/-- An enrolment message, or a frame for another member. -/
def headMsg (type : Byte) (dst : Fin 4) (msg : Bytes) : CasHead := ⟨true, type, 1, dst, 0, msg, crc32 (frameBytes type.toNat 1 dst.val 0 msg)⟩
theorem code_lt (b : CasBody) : b.code < 256 := by
  cases b <;> simp [CasBody.code]
  exact BitVec.isLt _
theorem headOf_crc (b : CasBody) (n : Nat) : (headOf b n).crcOk = true := by
  simp [headOf, CasHead.crcOk, BitVec.toNat_ofNat, Nat.mod_eq_of_lt (code_lt b)]
theorem headMsg_crc (t : Byte) (d : Fin 4) (m : Bytes) : (headMsg t d m).crcOk = true := by simp [headMsg, CasHead.crcOk]
/-- A state that shares key32 with member 1 accepts the frame. -/
theorem headOf_ok {s : State} {b : CasBody} {n : Nat} (hm : s.cas.member = 0) (hk : s.cas.peers[1].key = some key32) (hn : s.cas.peers[1].got < n) :
    s.frameOk (headOf b n) b = true := by
  have h : (1 : Fin 4) ≠ s.cas.member := by rw [hm]; decide
  have hp : (headOf b n).opens key32 b = true := by simp [headOf, CasHead.opens, Nat.mod_eq_of_lt (code_lt b)]
  have hk' : s.cas.peers[(headOf b n).src].key = some key32 := hk
  simp only [State.frameOk, hk', Option.any_some, hp, Bool.and_true]
  simp only [headOf, bne_iff_ne, ne_eq, Bool.and_eq_true]
  exact ⟨h, decide_eq_true hn⟩
/-- All that a statement asks of the receiver of a frame from member 1. -/
def receives (s : State) : Prop := s.inRing = true ∧ s.flt.fifo = [] ∧ s.cas.member = 0 ∧ s.cas.peers[1].key = some key32 ∧ s.cas.peers[1].got < 7
theorem witness_frames (s : State) (b : CasBody) (h : receives s) : s.inRing = true ∧ s.flt.fifo = [] ∧ (headOf b).crcOk = true
    ∧ (headOf b).dst = s.cas.member ∧ (headOf b).ctr < 2 ^ 48 ∧ s.frameOk (headOf b) b = true :=
  ⟨h.1, h.2.1, headOf_crc b 7, h.2.2.1.symm, (by decide : (7 : Nat) < 2 ^ 48), headOf_ok h.2.2.1 h.2.2.2.1 h.2.2.2.2⟩
/-- SHA3-256 of nothing (FIPS 202), SHA-256 of nothing and of 1,216 zeros (FIPS 180-4). -/
def sha3Nil : Bytes := toBe 32 0xa7ffc6f8bf1ed76651c14756a061d662f580ff4de43b49fa82d80a4b80f8434a
def sha256Nil : Bytes := toBe 32 0xe3b0c44298fc1c149afbf4c8996fb92427ae41e4649b934ca495991b7852b855
def sha256Zeros : Bytes := toBe 32 0x97d364e2d3d35f030a038c41bbadc42d0c15fa8d79ba569987e19fddb2e80f9a
theorem test_sha3 : sha3 32 [] = sha3Nil := by decide +kernel
theorem test_sha256 : digest 0x31 32 [] = sha256Nil := by decide +kernel
theorem test_sha256_zeros : digest 0x31 32 (z 1216) = sha256Zeros := by decide +kernel
/-- An attestation over no messages and an ENROL_PUB with this digest, as member 1 in FIELD gives it. -/
def attests (d : Bytes) : Bytes := sha3Nil ++ z 8 ++ [7#8] ++ List.replicate 16 1#8 ++ d ++ z 100
def under : Enrol := ⟨z 32, [], z 32, [], z 32, 0⟩
def enrolling (r : Role) (n : Nat) : State := cascaded r (peers [(1, { peer 1 0 0 n with enrol := some under })])
def sending (l : List CasOut) (tr : Bool) : State := cascaded .lead fun c => { two c with out := c.out.set 0 l, trained := c.trained.set 1 tr }
def sent (n : Nat) : CasOut := ⟨0, 1, 3, .heartbeat, key32, n⟩

theorem witness_cascadeLinks : lead.alive = true ∧ lead.flt.fifo = []
    ∧ (sending [sent 3] true).cas.out[side true] = [sent 3] ∧ (15 : Nat) ≤ (sent 15).tries
    ∧ up.cas.trained[side true] = false ∧ up.inRing = false
    ∧ (lead.inRing = true ∧ (headMsg 0x11#8 2 (z 20)).crcOk = true ∧ (headMsg 0x11#8 2 (z 20)).dst ≠ lead.cas.member
      ∧ (headMsg 0x11#8 2 (z 20)).src ≠ lead.cas.member ∧ lead.cas.trained[1 - side true] = true ∧ lead.cas.out[1 - side true].length < 64)
    ∧ (let s := sending [sent 3] true; s.cas.trained[side true] = true ∧ s.forwardedBy (side true) = []
      ∧ s.cas.trained[side false] = true ∧ s.cas.out[side false].length + s.cas.out[side true].length ≤ 64)
    ∧ (sending [sent 3] false).cas.trained[side false] = false
    ∧ lead.pelOn = true ∧ lead.cas.role = .lead ∧ lead.cas.peers[1].status = 2 := by decide +kernel
theorem witness_enrolment_lead (ok : Bool) : let msg := z 2368 ++ attests sha256Zeros
    (enrolling .lead 1).enrolOk 1 ⟨true, ok⟩ (slice msg 2368 attestLen) (sha3 32 under.msgs) (enrolPubIn msg) = ok := by
  intro msg
  have h : enrolPubIn msg = z 1216 := by decide +kernel
  simp only [State.enrolOk, h, test_sha256_zeros, show under.msgs = [] from rfl, test_sha3]
  cases ok <;> decide +kernel
theorem witness_enrolment_follower (ok : Bool) : let msg := z 1088 ++ attests sha256Nil
    (enrolling .follower 2).enrolOk 1 ⟨true, ok⟩ (slice msg 1088 attestLen) (sha3 32 under.msgs) under.pub = ok := by
  intro msg
  simp only [State.enrolOk, show under.pub = [] from rfl, test_sha256, show under.msgs = [] from rfl, test_sha3]
  cases ok <;> decide +kernel
theorem witness_enrolment : (let s := cascaded .lead id; s.inRing = true ∧ s.flt.fifo = [] ∧ s.mayEnrol 1 = true ∧ lead.mayEnrol 1 = false
      ∧ (headMsg 1#8 0 (z 20)).dst = s.cas.member ∧ (headMsg 1#8 0 (z 20)).ctr = 0 ∧ (headMsg 1#8 0 (z 20)).src ≠ s.cas.member)
    ∧ (let s := cascaded .follower fun c => { c with leader := some 2 }; s.cas.leader = some 2 ∧ (2 : Fin 4) ≠ 1 ∧ s.inRing = true)
    ∧ (let s := cascaded .follower id; s.cas.role ≠ .lead ∧ s.namedPeer 1 = true ∧ s.cas.peers[1].status ≠ 3 ∧ s.cas.leader = none)
    ∧ ((enrolling .lead 1).cas.peers[1].step = 1 ∧ (enrolling .lead 1).cas.peers[1].enrol = some under ∧ (enrolling .lead 1).cas.role = .lead)
    ∧ (enrolling .follower 2).cas.peers[1].step = 2 ∧ (enrolling .follower 2).isFollower = true
    ∧ (receives follower ∧ receives lead ∧ follower.cas.leader = some 1 ∧ follower.cas.role ≠ .cutOff ∧ lead.cas.leader ≠ some 1)
    ∧ ([((2 : Fin 4), key32)].lookup 2 = some key32 ∧ [((2 : Fin 4), key32)].lookup 3 = none ∧ (2 : Fin 4) ≠ follower.cas.member) := by
  unfold receives; decide +kernel
theorem witness_heartbeats : lead.pelOn = true ∧ (∀ m ∈ lead.enrolled, lead.cas.peers[m].sent + 1 < 2 ^ 48) ∧ lead.enrolled = [1, 2]
    ∧ follower.pelOn = true ∧ receives follower ∧ follower.isFollower = true ∧ follower.cas.leader = some 1
    ∧ receives lead ∧ lead.frameOk (headMsg 0x20#8 0 []) .heartbeat = false ∧ (headMsg 0x20#8 0 []).crcOk = true ∧ follower.cas.role = .follower
    ∧ follower.NoneWait := by
  unfold State.NoneWait receives; decide +kernel

def work1 : FwdWork := ⟨0x0401, 0x40, 0, z 10, [], [], []⟩
def away : Job := { jobOf (entry 3 0x0401 0x40 0x131 0 (from_ 0x1000 32 ++ [b8 32 0x2000, b4 40 64, b8 64 0x6000, b4 72 65])) with phase := .forwarded, member4 := some 1 }
/-- Job 7 of instance 3 runs at member 1. -/
def leading : State := { ring with cas := lead.cas, cfg := lead.cfg, pins := lead.pins }.setJobs [away]
def full4 (s : State) : State := [(24 : Fin 36), 25, 26, 27].foldl (fun s x => engine x (fun e => { e with contexts := [50] }) s) s
theorem witness_forwarding : (receives follower ∧ follower.cas.role ≠ .cutOff ∧ follower.NoneWait)
    ∧ (follower.updPwr fun p => { p with prep := some ⟨true, false, false, []⟩ }).pwr.prep ≠ none
    ∧ (follower.cas.role = .follower ∧ follower.pwr.prep = none ∧ follower.fwdRoom ≠ 0 ∧ follower.job follower.disp.nextJob = none)
    ∧ leading.forwarded 1 8 = none
    ∧ (receives leading ∧ leading.cas.role ≠ .cutOff ∧ leading.forwarded 1 7 = some away ∧ leading.superseded away = false)
    ∧ (leading.NoneWait ∧ leading.flt.fifo = [] ∧ leading.job 7 = some away ∧ away.tc = false ∧ away.engine = none ∧ (leading.engineFor away .lf).isSome)
    ∧ ((full4 leading).engineFor away .lf = none ∧ (full4 leading).candidates away .lf ≠ [] ∧ away.member4 ≠ none)
    ∧ leading.job 8 = none := by unfold State.NoneWait receives; decide +kernel

def moved : MovedSlot := { slot := 0x10, gen := 1, usage := 0x10, ktype := 1, csrc := 2, cnum := 1, fixed := z 4, shareA := z 16, shareB := key32.take 16, run := 2, depth := 1, limit := 0, used := 2, next := 0, stop := 9, first := none, last := none, root := some 1, ownerLabel := [], test := false, sealedOnly := false, tlsSpent := false }
def moves (f : Inst → Inst) : State :=
  on3 { ring with cas := lead.cas, cfg := lead.cfg, pins := lead.pins } fun i => f { i with state := .configured, quiesced := true, pelAccept := 1 }
def inMove (a : MoveAt) : State := moves fun i => { i with pelPeer := some ⟨1, 4, a⟩, pelResult := 1 }
theorem witness_slotMoves : (receives (moves id) ∧ (moves id).cas.role ≠ .cutOff)
    ∧ (moves fun i => { i with state := .active }).moveFits 1 3 0x10 64 = false
    ∧ (moves id).moveFits 1 3 0x10 64 = true ∧ (moves id).vault.counter 1 < 7 ∧ receives (inMove .held) ∧ receives (inMove .sent) ∧ receives (inMove .committed)
    ∧ (inMove .held).openMove 3 1 .held = some ⟨1, 4, .held⟩ ∧ (inMove .sent).openMove 3 1 .sent = some ⟨1, 4, .sent⟩
    ∧ (inMove .committed).openMove 3 1 .committed = some ⟨1, 4, .committed⟩
    ∧ (inMove .held).moveIs 3 [.held] = true ∧ (inMove .sent).moveIs 3 [.held] = false
    ∧ (inMove .sent).moveIs 3 [.sent, .committed] = true ∧ (inMove .held).moveIs 3 [.sent, .committed] = false := by
  unfold receives; decide +kernel

def stopped (j : JSt) (o : Option (Who × Nat × Bytes)) : State := (sess 7 (jr up)).updJnl fun x => { x with state := j, updOpen := o }
theorem witness_segmentsNeedJournal : idle (stopped .failed none) (.session 0) ∧ isObj 0x1B20 1 .updSegment
    ∧ (stopped .failed none).writeDenied (.session 0) .updSegment = none ∧ (z 8).length ≤ roomOf (.session 0)
    ∧ (stopped .failed none).jnl.state ≠ .ready ∧ (stopped .failed none).jnl.updOpen = none
    ∧ (let s := stopped .budgetHeld (some (.session 0, 100, z 8)); idle s (.session 0) ∧ s.jnl.updOpen = some (.session 0, 100, z 8)
      ∧ atOffset (.session 0) 8 (z 8).length = true) := by unfold isObj; decide +kernel

/-! ### Known answers, from the standards that the spec names -/

/-- FIPS 197, appendix B. -/
theorem test_aes : ofBe (aesEnc (toBe 16 0x2b7e151628aed2a6abf7158809cf4f3c) (toBe 16 0x3243f6a8885a308d313198a2e0370734))
    = 0x3925841d02dc09fbdc118597196a0b32 := by decide +kernel
/-- RFC 4493, example 3. -/
theorem test_cmac : ofBe (cmac (toBe 16 0x2b7e151628aed2a6abf7158809cf4f3c)
      (toBe 40 0x6bc1bee22e409f96e93d7e117393172aae2d8a571e03ac9c9eb76fac45af8e5130c81c46a35ce411))
    = 0xdfa66747de9ae63030ca32611497c827 := by decide +kernel
/-- The check value of CRC-32/ISO-HDLC, for "123456789". -/
theorem test_crc : crc32 ((List.range 9).map fun i => BitVec.ofNat 8 (0x31 + i)) = 0xCBF43926 := by decide +kernel
/-- The GCM specification, test case 1. -/
theorem test_gcm : ofBe (gcmTag (z 16) (z 12) [] []) = 0x58e2fccefa7e3061367f1d57a4e7455a := by decide +kernel

end Sys2Proof.Tests
end

section
/-! The identity register at the target port (R3, R4): what a read of it answers, and that a write of it only answers. -/

namespace Sys2Proof.Machine

/-- The offset at which an access of this width reaches IDENT: its upper half in a 32-bit access of bits 63:32 (R60). -/
def identOffset (a : Tgt) : Nat := if a.width = .high then 4 else 0

/-- VENDOR, BLOCK, REV_LETTER, METAL and IF_REV of R3. -/
def identFields : Word := 0x4B57#16 ++ 0x6400#16 ++ 0x42#8 ++ 0x01#8 ++ 0x0003#16

/-- What TGT_RDATA shows of IDENT in an access of this width (R60). -/
def identData : Width → Word
  | .low => 0x42010003#64
  | .high => 0x4B57640000000000#64
  | _ => identFields

variable {s : State} {a : Tgt}

@[simp] theorem regAt_identOffset (a : Tgt) : regAt (identOffset a / 8 * 8) = some .ident := by
  unfold identOffset
  split <;> rfl

theorem fits_identOffset (hw : a.width ≠ .other) : fits a (identOffset a) = true := by
  unfold fits identOffset
  split <;> simp [hw]

theorem State.width_ne_other_of_portTakes (hp : s.portTakes a = true) : a.width ≠ .other := by
  rw [State.portTakes, Bool.and_eq_true, bne_iff_ne] at hp
  exact hp.2

theorem State.fits_identOffset_of_portTakes (hp : s.portTakes a = true) : fits a (identOffset a) = true :=
  fits_identOffset (State.width_ne_other_of_portTakes hp)

/-- The number that the model shows as IDENT is made up of R3's fields. -/
theorem State.regValue_ident (s : State) : s.regValue .ident = identFields :=
  (by decide : BitVec.ofNat 64 identValue = identFields)

theorem State.regReadable_ident (s : State) : s.regReadable .ident = true := by
  simp [State.regReadable]

theorem merge_zero_identFields {w : Width} (hw : w ≠ .other) : merge w 0#64 identFields = identData w := by
  cases w with
  | full => rfl
  | low => decide
  | high => decide
  | other => exact absurd rfl hw

/-- IDENT's value depends on no part of the state, and no admission is asked for it (R4, R61). -/
theorem State.readRegister_ident (hp : s.portTakes a = true) : s.readRegister a (identOffset a) = some identFields := by
  simp [State.readRegister, hp, State.fits_identOffset_of_portTakes hp, State.regReadable_ident, State.regValue_ident]

theorem State.readWindow_ident (hp : s.portTakes a = true) :
    s.readWindow a (identOffset a) = (s.count 0x201E 1).portData (identData a.width) := by
  simp [State.readWindow, hp, State.fits_identOffset_of_portTakes hp, State.readRegister_ident hp, Reg.box,
    merge_zero_identFields (State.width_ne_other_of_portTakes hp)]

theorem State.writeWindow_ident (hp : s.portTakes a = true) (v : Word) :
    s.writeWindow a (identOffset a) v = s.answeredAt := by
  simp [State.writeWindow, hp, State.fits_identOffset_of_portTakes hp]

theorem exec_registerRead (s : State) (a : Tgt) (addr : Nat) (v : Word) :
    exec (.registerWrite a addr v false) s = .next (s.readWindow a addr) := rfl

theorem exec_registerWrite (s : State) (a : Tgt) (addr : Nat) (v : Word) :
    exec (.registerWrite a addr v true) s = .next (s.writeWindow a addr v) := rfl

/-- A counted read changes only the counters and the answer (R60). -/
theorem State.count_portData_frame (s : State) (i k : Nat) (d : Word) :
    (s.count i k).portData d
      = { s with cnt := (s.count i k).cnt, pins := { s.pins with tgtRsp := true, tgtErr := false, tgtRdata := d } } := rfl

/-- An answered write changes, before its effect, only the counters and the answer (R60). -/
theorem State.answeredAt_frame (s : State) :
    s.answeredAt = { s with cnt := (s.count 0x201E 1).cnt, pins := { s.pins with tgtRsp := true, tgtErr := false } } := rfl

/-- It leaves COAST as it is, where the register does not end it (R468). -/
theorem State.answeredOnly_answeredAt (s : State) : s.AnsweredOnly s.answeredAt := ⟨rfl, rfl⟩

/-- The port takes the same accesses after an answered one as before it. -/
theorem State.portTakes_answeredAt (s : State) (a : Tgt) : s.answeredAt.portTakes a = s.portTakes a := rfl

/-- Settles O9: whatever the start-up state, a read of IDENT is `portData` of its fields and a write of it `answeredAt`, and
the port takes the same accesses after that as before. -/
theorem identFixed : Obligations.IdentFixed := by
  unfold Obligations.IdentFixed
  intro s a v hp addr ident
  have hread : s.readWindow a addr = (s.count 0x201E 1).portData (identData a.width) := State.readWindow_ident hp
  have hwrite : s.writeWindow a addr v = s.answeredAt := State.writeWindow_ident hp v
  refine ⟨State.readRegister_ident hp, ?_, ?_⟩
  · refine ⟨_, (exec_registerRead s a addr v).trans (congrArg _ hread), ?_, ?_⟩
    · rw [State.count_portData_frame]
      rfl
    · rw [State.count_portData_frame]
  · refine ⟨_, (exec_registerWrite s a addr v).trans (congrArg _ hwrite), ?_, ?_, fun _ => s.answeredOnly_answeredAt⟩
    · exact State.readRegister_ident ((s.portTakes_answeredAt a).trans hp)
    · rw [State.answeredAt_frame]

end Sys2Proof.Machine
end
